-- ==== Sys2Proof/Word.lean ====
section
/-! DEFINITION. The machine's word types (00_scope R10 to R12). -/

namespace Sys2Proof

/-- A byte. -/
abbrev Byte := BitVec 8
/-- A halfword of 16 bits. -/
abbrev Half := BitVec 16
/-- A 32-bit word: a g register, a parameter word, an instruction word. -/
abbrev Word := BitVec 32
/-- A 64-bit double word: a timebase value, a tick number, a segment descriptor. -/
abbrev Dword := BitVec 64
/-- An accumulator of 72 bits (R87). -/
abbrev Acc := BitVec 72

/-- A logic core, L0 to L7. -/
abbrev CoreId := Fin 8
/-- The number of a g or a b register. -/
abbrev RegNo := Fin 32
/-- The number of a segment register. -/
abbrev SegNo := Fin 16
/-- The number of an accumulator. -/
abbrev AccNo := Fin 4

end Sys2Proof
end

