-- ==== Sys2Proof/Cmd.lean ====
section
/-! DEFINITION. The operand types of the commands: what the outside reports with a happening,
and the headers and items of a host's requests. -/

namespace Sys2Proof

/-- A frame on a message bus (Table 14-4): IDW (identifier, IDE, FDF, BRS), ESI and data. -/
structure CanFrame where
  idw : Word
  esi : Bool
  data : List Byte
  deriving DecidableEq, Repr

/-- The transmit buffer whose frame each message bus has begun to send at an instant (R425), by controller. -/
abbrev BusBusy := List (Option (Fin 16))

/-- What the outside shows at a tick edge (R220, R246, R445): the supply voltages that the module
measures, the readback comparators' levels of DO0 to DO31, and the frames that the buses have begun. -/
structure EdgeEnv where
  lplusMv : Nat
  m1Mv : Nat
  m2Mv : Nat
  bankMv : Nat
  vbakMv : Nat
  doLevel : Word
  busy : BusBusy
  deriving DecidableEq, Repr

/-- What the outside shows at a Phase O instant: whether the executive makes its service write
(R491) and the count `t` of the watchdog's own oscillator then (R489, R490); whether a carrier read of INIT data has failed twice in a migration tick (R177); and the frames that the buses have begun. -/
structure PhaseOEnv where
  serviced : Bool
  wdt : Nat
  initFail : Bool
  busy : BusBusy
  deriving DecidableEq, Repr

/-- Header of a request as it arrives (R526 to R528): slot, nonce, sequence number, whether the
TAG verifies, the peer, and the instant of arrival. -/
structure ReqHdr where
  slot : Fin 8
  nonce : Dword
  seq : Nat
  tagOk : Bool
  ip : Word
  port : Half
  at_ : Nat
  deriving DecidableEq, Repr

/-- One item of a WRITE (R542). -/
structure WriteItem where
  blk : Half
  word : Half
  value : Word
  deriving DecidableEq, Repr

/-- One item of an EDIT or a force request (R538). -/
structure EditItem where
  symid : Dword
  index : Nat
  ty : Nat
  value : Dword
  deriving DecidableEq, Repr

/-- A request of a host without its header (R533, R563): what waits in a session, for Phase O or for the program carrier. -/
inductive Req where
  | read (blk word count flags sub : Nat)
  | write (items : List WriteItem) (sub : Nat)
  | edit (items : List EditItem)
  | forceSet (item : EditItem)
  | forceRelease (item : EditItem)
  | close
  | auth (key sig : List Byte)
  | restart
  | coldStart
  | cedarHold (set : Bool)
  | dormant
  | wake
  | safeEnter
  | safeRelease
  | exchange (slot : Nat)
  | exchangePair (slot : Nat)
  | pairSwap
  | tuneStart (n : Nat)
  | tuneStop (n : Nat)
  | tuneApply (n : Nat)
  | captureStart (n : Nat) (sel : List Nat) (dec count : Nat)
  | captureRelease
  | supBaseline (n : Nat)
  | updOpen (slot : Nat) (resume : Bool) (len : Nat)
  | updBlock (ofs : Nat) (data : List Byte)
  | updVerify
  | updClose
  | activate (slot mode : Nat) (migrate : Bool)
  | identity
  | attest (challenge : List Byte)
  | ownerEnroll (key : List Byte) (slot : Nat) (sig : List Byte)
  | ownerRevoke (slot : Nat)
  | rollbackAdvance (step : Nat)
  deriving DecidableEq, Repr

/-- A heartbeat of port S (Table 12-2). `ackTick` is none for all ones. -/
structure Hb where
  role : Nat
  state : Nat
  flags : Nat
  epoch : Nat
  tick : Nat
  edgeTs : Nat
  ackTick : Option Nat
  durable : Nat
  progid8 : List Byte
  period : Nat
  lease : Nat
  serial : Nat
  deriving DecidableEq, Repr

/-- A join heartbeat (Table 13-2). -/
structure Jhb where
  member : Nat
  state : Nat
  flags : Nat
  tick : Nat
  edgeTs : Nat
  theta0 : Word
  omega : Word
  progid8 : List Byte
  period : Nat
  peerProg : List Byte
  deriving DecidableEq, Repr

/-- The seal of a mirror record: its directory entry (Table 6-4). -/
structure SealMsg where
  tick : Nat
  first : Nat
  edgeTs : Nat
  nlines : Nat
  progid8 : List Byte
  merged : Bool
  deriving DecidableEq, Repr

end Sys2Proof
end

