-- ==== Sys2Proof/Machine/Records.lean ====
section
/-! DEFINITION. The journals and the executive's retained state (R184, R190, Table 6-3): what a commit, a mirror record
and a resync carry beside the lines of the memories. -/

namespace Sys2Proof.Machine

/-! ## Journals and retained state -/

/-- Session header (Table 20-3). -/
structure SessHdr where
  nonce : Dword
  next : Nat
  open_ : Bool
  priv : Bool
  hkey : Nat
  key : List Byte
  hrand8 : List Byte
  deriving DecidableEq, Repr

/-- Request result entry (Table 6-6). -/
structure ResEntry where
  slot : Nat
  seq : Nat
  kind : Nat
  status : Nat
  tick : Nat
  data : List Byte
  deriving DecidableEq, Repr

/-- A force (R168), and its entry of the force table. -/
structure Force where
  symid : Dword
  index : Nat
  ty : Nat
  value : Dword
  num : Nat
  at_ : Nat
  deriving DecidableEq, Repr

/-- Entry of the escalation journal (Table 18-3). -/
structure EscEntry where
  level : Nat
  cls : Nat
  cause : Nat
  powerup : Nat
  tb : Nat
  deriving DecidableEq, Repr

/-- Escalation journal (Table 18-3). Entry i lies in line 1 + i / 3. -/
structure Esc where
  powerup : Nat
  safe : Bool
  safeCause : Nat
  next : Nat
  clearPu : Nat
  clearTs : Nat
  entries : List (Option EscEntry)
  deriving DecidableEq, Repr

/-- A queued fault (R498). -/
structure QFault where
  code : Nat
  cls : Nat
  unit : Nat
  ts : Nat
  deriving DecidableEq, Repr

/-- Evidence entry as bytes of 1 KiB (Table 18-5), without the trailing reserved bytes. -/
structure Evid where
  bytes : List Byte
  deriving DecidableEq, Repr

/-- Carrier record (Table 21-9). -/
structure CarRec where
  state : Nat
  slot : Nat
  holder : Nat
  opkind : Nat
  length : Nat
  erasedTo : Nat
  opsect : Nat
  opofs : Nat
  oplen : Nat
  scratch : Bool
  prot : Bool
  vmeas : List Byte
  deriving DecidableEq, Repr

/-- Exchange record (R178): slot, PROGID of the new image. -/
structure ExRec where
  slot : Nat
  progid : List Byte
  /-- The request to be acknowledged: session slot and sequence number. -/
  req : Option (Nat × Nat)
  deriving DecidableEq, Repr

/-- A value-edit batch (R163, R165) and the request that brought it. -/
structure Batch where
  slot : Nat
  seq : Nat
  items : List EditItem
  deriving DecidableEq, Repr

/-- A force change that waits (R170). -/
structure ForceChg where
  slot : Nat
  seq : Nat
  set : Bool
  item : EditItem
  deriving DecidableEq, Repr

/-- Retained record of a loop (R327): I, YP, D, P, V, A, UF and the state word ST. -/
structure LoopRec where
  i : Word
  yp : Word
  d : Word
  p : Word
  v : Word
  a : Word
  uf : Word
  st : Word
  deriving DecidableEq, Repr

/-- The panel journal (R461): intended and pending image, and the region journal. -/
structure PanelJ where
  /-- Images by byte offset; unlisted bytes read 0. -/
  intended : List Host.Cell
  pendImg : List Host.Cell
  /-- Pending regions in queue order. -/
  queue : List Nat
  /-- Running region, the REQ value that it serves, its phase, its next line, and the interrupted mark. -/
  runR : Option Nat
  runReq : Nat
  runAlt : Bool
  line : Nat
  intr : Bool
  /-- Regions in their alternate phase. -/
  phases : Nat
  /-- REQ value of the last request of every region, and DONE values. -/
  req : List Nat
  done : List Nat
  deriving DecidableEq, Repr

/-- The journals (Table 6-3). -/
structure Journals where
  hdrs : Vector SessHdr 8
  /-- Request results, one per slot and SEQ mod 256 (R208). -/
  results : List ResEntry
  ip : Word
  mask : Word
  gw : Word
  /-- Cedar hold flag and cold-start command. -/
  hold : Bool
  cold : Bool
  forces : List Force
  /-- Creation number of the next force. -/
  forceNum : Nat
  evid : List Evid
  evNext : Nat
  evSeq : Nat
  esc : Esc
  car : CarRec
  exr : Option ExRec
  panel : PanelJ
  deriving DecidableEq, Repr

/-- The executive's retained state (R184). -/
structure ExecRet where
  edits : List Batch
  changes : List ForceChg
  /-- Map position: entry and byte offset (R177). -/
  mapEntry : Nat
  mapOfs : Nat
  /-- Pair epoch (R377). -/
  epoch : Nat
  /-- The INCOMPLETE mark of a resync (R383). -/
  incomplete : Bool
  /-- A request that the partner answers after a swap (R386): session slot, sequence number, kind. -/
  swapReq : Option (Nat × Nat × Nat)
  loops : Vector LoopRec 96
  /-- Retained parameter words that differ from their reset value, by ascending address: the configuration words and proposals of the
  LOOP and TUNE blocks (R341, R360) and WAKE_CTRL (R246). -/
  words : List (Nat × Word)
  deriving DecidableEq, Repr


/-- A configuration carrier: capacity in MiB, 0 for none, and contents; unlisted bytes read 16#FF. -/
structure Carrier where
  mib : Nat
  cells : List Host.Cell
  deriving DecidableEq, Repr

/-- The journals and the executive's retained state as one value. -/
structure RetState where
  j : Journals
  x : ExecRet
  deriving DecidableEq, Repr

end Sys2Proof.Machine
end

