-- ==== Sys2Proof/Syntax.lean ====
section
/-! DEFINITION. The commands of the block: one constructor per row of the operation table.
The table gives the rows no operands and no bits; the operands here are the fields that the
chapters give the operation, the instant `at_` (10 ns counts since power-up) of a happening that
comes from outside, and what the outside reports with it. Assumptions 1 and 2. -/

namespace Sys2Proof

/-- A command: an instruction that a core issues, a happening at a port, a step of one of the block's
own sequencers, or a request of a host. -/
inductive Instr where
  /-- TICK_EDGE (R50). The sequencer produces edge n: inputs are latched, outputs of tick n-1 are released, the tick counter increments and Phase I begins. -/
  | tickEdge (env : EdgeEnv)
  /-- PHASE_L_START (R53). At edge + 2 µs the logic cores start their windows and the loop engine starts. -/
  | phaseLStart (arms : Bool)
  /-- PHASE_O_START (R63). At edge + T - 3 µs the overrun check runs, forced outputs are imposed, outputs are captured, the dirty set closes, the commit begins and a value-edit batch is applied. -/
  | phaseOStart (env : PhaseOEnv)
  /-- EVENT_TRIGGER (R65). The event router latches the trigger timestamp, writes the slot's event record and sets EVT_FLAGS and EVT_PEND. -/
  | eventTrigger (src : Nat) (at_ : Nat) (cyc : Nat)
  /-- EVENT_TAKE (R67). At its next quiet boundary a core switches to the event context in 8 cycles and starts the released event task. -/
  | eventTake (c : CoreId) (at_ : Nat) (cyc : Nat)
  /-- TASK_ABANDON (R74). A C1 fault's task abandonment completes within 64 cycles and the core continues with its next due task. -/
  | taskAbandon (c : CoreId) (cycles : Nat) (at_ : Nat)
  /-- RESULT_COMPLETE (R99). A pending result completes at issue + distance and is written in issue order to its destination. -/
  | resultComplete (c : CoreId)
  /-- ILLEGAL_INSTRUCTION (R118). Issue of an unassigned encoding raises fault 16#2002. -/
  | illegalInstruction (c : CoreId) (w : Word)
  /-- SCRUB_LINE (R37). The executive scrubs one shared SRAM line in the background through port F8. -/
  | scrubLine
  /-- NOP (R122). No operation. -/
  | nop (c : CoreId)
  /-- JR (R122). Register jump with one delay slot. -/
  | jr (c : CoreId) (ra : RegNo) (imm : BitVec 12)
  /-- BAND (R123). b[BD] = b[BA] and b[BB]. -/
  | band (c : CoreId) (bd ba bb : RegNo)
  /-- BOR (R123). b[BD] = b[BA] or b[BB]. -/
  | bor (c : CoreId) (bd ba bb : RegNo)
  /-- BXOR (R123). b[BD] = b[BA] xor b[BB]. -/
  | bxor (c : CoreId) (bd ba bb : RegNo)
  /-- BANDN (R123). b[BD] = b[BA] and not b[BB]. -/
  | bandn (c : CoreId) (bd ba bb : RegNo)
  /-- BORN (R123). b[BD] = b[BA] or not b[BB]. -/
  | born (c : CoreId) (bd ba bb : RegNo)
  /-- BNAND (R123). b[BD] = not (b[BA] and b[BB]). -/
  | bnand (c : CoreId) (bd ba bb : RegNo)
  /-- BNOR (R123). b[BD] = not (b[BA] or b[BB]). -/
  | bnor (c : CoreId) (bd ba bb : RegNo)
  /-- BXNOR (R123). b[BD] = not (b[BA] xor b[BB]). -/
  | bxnor (c : CoreId) (bd ba bb : RegNo)
  /-- CEQ (R124). Compare equal into a b register. -/
  | ceq (c : CoreId) (bd ra rb : RegNo)
  /-- CNE (R124). Compare not equal into a b register. -/
  | cne (c : CoreId) (bd ra rb : RegNo)
  /-- CLT (R124). Signed less-than compare into a b register. -/
  | clt (c : CoreId) (bd ra rb : RegNo)
  /-- CGE (R124). Signed greater-or-equal compare into a b register. -/
  | cge (c : CoreId) (bd ra rb : RegNo)
  /-- CLTU (R124). Unsigned less-than compare into a b register. -/
  | cltu (c : CoreId) (bd ra rb : RegNo)
  /-- CGEU (R124). Unsigned greater-or-equal compare into a b register. -/
  | cgeu (c : CoreId) (bd ra rb : RegNo)
  /-- CNZ (R124). Non-zero test into a b register. -/
  | cnz (c : CoreId) (bd ra : RegNo)
  /-- CTST (R124). Bitwise test of g[RA] and g[RB] into a b register. -/
  | ctst (c : CoreId) (bd ra rb : RegNo)
  /-- TBI (R124). Bit K of g[RA] into a b register. -/
  | tbi (c : CoreId) (bd ra k : RegNo)
  /-- TBR (R124). Bit g[RB][4:0] of g[RA] into a b register. -/
  | tbr (c : CoreId) (bd ra rb : RegNo)
  /-- BTOG (R124). b register zero-extended into a g register. -/
  | btog (c : CoreId) (rd ba : RegNo)
  /-- BINS (R124). Insert a b register into bit K of g[RD]. -/
  | bins (c : CoreId) (rd ba k : RegNo)
  /-- ADD (R125). Wrapping 32-bit add. -/
  | add (c : CoreId) (rd ra rb : RegNo)
  /-- SUB (R125). Wrapping 32-bit subtract. -/
  | sub (c : CoreId) (rd ra rb : RegNo)
  /-- ADDV (R125). Add setting OV on signed overflow. -/
  | addv (c : CoreId) (rd ra rb : RegNo)
  /-- SUBV (R125). Subtract setting OV on signed overflow. -/
  | subv (c : CoreId) (rd ra rb : RegNo)
  /-- ADDS (R125). Signed saturating add. -/
  | adds (c : CoreId) (rd ra rb : RegNo)
  /-- SUBS (R125). Signed saturating subtract. -/
  | subs (c : CoreId) (rd ra rb : RegNo)
  /-- ADDSU (R125). Unsigned saturating add. -/
  | addsu (c : CoreId) (rd ra rb : RegNo)
  /-- SUBSU (R125). Unsigned saturating subtract. -/
  | subsu (c : CoreId) (rd ra rb : RegNo)
  /-- ABSS (R125). Saturating absolute value. -/
  | abss (c : CoreId) (rd ra : RegNo)
  /-- AND (R125). Bitwise and. -/
  | and (c : CoreId) (rd ra rb : RegNo)
  /-- OR (R125). Bitwise or. -/
  | or (c : CoreId) (rd ra rb : RegNo)
  /-- XOR (R125). Bitwise exclusive or. -/
  | xor (c : CoreId) (rd ra rb : RegNo)
  /-- ANDN (R125). Bitwise and with complement. -/
  | andn (c : CoreId) (rd ra rb : RegNo)
  /-- ORN (R125). Bitwise or with complement. -/
  | orn (c : CoreId) (rd ra rb : RegNo)
  /-- XNOR (R125). Bitwise exclusive nor. -/
  | xnor (c : CoreId) (rd ra rb : RegNo)
  /-- NOR (R125). Bitwise nor. -/
  | nor (c : CoreId) (rd ra rb : RegNo)
  /-- MIN (R125). Signed minimum. -/
  | min (c : CoreId) (rd ra rb : RegNo)
  /-- MAX (R125). Signed maximum. -/
  | max (c : CoreId) (rd ra rb : RegNo)
  /-- MINU (R125). Unsigned minimum. -/
  | minu (c : CoreId) (rd ra rb : RegNo)
  /-- MAXU (R125). Unsigned maximum. -/
  | maxu (c : CoreId) (rd ra rb : RegNo)
  /-- SEL (R125). Select g[RA] or g[RB] by a b register. -/
  | sel (c : CoreId) (rd ra rb bc : RegNo)
  /-- SLT (R125). Signed set-if-less-than. -/
  | slt (c : CoreId) (rd ra rb : RegNo)
  /-- SLTU (R125). Unsigned set-if-less-than. -/
  | sltu (c : CoreId) (rd ra rb : RegNo)
  /-- ADDI (R126). Add sign-extended immediate. -/
  | addi (c : CoreId) (rd ra : RegNo) (imm : Half)
  /-- ADDSI (R126). Saturating add of an immediate. -/
  | addsi (c : CoreId) (rd ra : RegNo) (imm : Half)
  /-- ANDI (R126). And with zero-extended immediate. -/
  | andi (c : CoreId) (rd ra : RegNo) (imm : Half)
  /-- ORI (R126). Or with zero-extended immediate. -/
  | ori (c : CoreId) (rd ra : RegNo) (imm : Half)
  /-- XORI (R126). Exclusive or with zero-extended immediate. -/
  | xori (c : CoreId) (rd ra : RegNo) (imm : Half)
  /-- ORHI (R126). Or immediate into the high half. -/
  | orhi (c : CoreId) (rd ra : RegNo) (imm : Half)
  /-- SLTI (R126). Signed set-if-less-than immediate. -/
  | slti (c : CoreId) (rd ra : RegNo) (imm : Half)
  /-- SLTIU (R126). Unsigned set-if-less-than immediate. -/
  | sltiu (c : CoreId) (rd ra : RegNo) (imm : Half)
  /-- SLL (R127). Shift left logical by register. -/
  | sll (c : CoreId) (rd ra rb : RegNo)
  /-- SRL (R127). Shift right logical by register. -/
  | srl (c : CoreId) (rd ra rb : RegNo)
  /-- SRA (R127). Shift right arithmetic by register. -/
  | sra (c : CoreId) (rd ra rb : RegNo)
  /-- ROR (R127). Rotate right by register. -/
  | ror (c : CoreId) (rd ra rb : RegNo)
  /-- SHI (R127). Shift or rotate by an immediate count. -/
  | shi (c : CoreId) (rd ra : RegNo) (kind : BitVec 2) (n : RegNo)
  /-- EXT (R127). Extract a bit field, signed or unsigned. -/
  | ext (c : CoreId) (rd ra : RegNo) (sx : Bool) (w1 pos : RegNo)
  /-- INS (R127). Insert a bit field into g[RD]. -/
  | ins (c : CoreId) (rd ra w1 pos : RegNo)
  /-- LDB (R128). Load byte zero-extended through a segment. -/
  | ldb (c : CoreId) (rt ra : RegNo) (sg : SegNo) (disp : BitVec 12)
  /-- LDH (R128). Load halfword zero-extended through a segment. -/
  | ldh (c : CoreId) (rt ra : RegNo) (sg : SegNo) (disp : BitVec 12)
  /-- LDW (R128). Load word through a segment. -/
  | ldw (c : CoreId) (rt ra : RegNo) (sg : SegNo) (disp : BitVec 12)
  /-- STB (R128). Store byte through a segment. -/
  | stb (c : CoreId) (rt ra : RegNo) (sg : SegNo) (disp : BitVec 12)
  /-- STH (R128). Store halfword through a segment. -/
  | sth (c : CoreId) (rt ra : RegNo) (sg : SegNo) (disp : BitVec 12)
  /-- STW (R128). Store word through a segment. -/
  | stw (c : CoreId) (rt ra : RegNo) (sg : SegNo) (disp : BitVec 12)
  /-- LDP (R130). Load with post-increment step of the offset register. -/
  | ldp (c : CoreId) (rt ra : RegNo) (sg : SegNo) (sz : BitVec 2) (stp : BitVec 10)
  /-- STP (R130). Store with post-increment step of the offset register. -/
  | stp (c : CoreId) (rt ra : RegNo) (sg : SegNo) (sz : BitVec 2) (stp : BitVec 10)
  /-- MUL (R132). 32-bit multiply, low word. -/
  | mul (c : CoreId) (rd ra rb : RegNo)
  /-- MULHS (R132). Signed multiply, high word. -/
  | mulhs (c : CoreId) (rd ra rb : RegNo)
  /-- MULHU (R132). Unsigned multiply, high word. -/
  | mulhu (c : CoreId) (rd ra rb : RegNo)
  /-- MULQ (R132). Rounded saturating Q31 multiply. -/
  | mulq (c : CoreId) (rd ra rb : RegNo)
  /-- DIVS (R133). Fixed-time signed divide into quotient and remainder. -/
  | divs (c : CoreId) (rd ra rb : RegNo)
  /-- DIVU (R133). Fixed-time unsigned divide into quotient and remainder. -/
  | divu (c : CoreId) (rd ra rb : RegNo)
  /-- MAC (R108). Dual-fetch multiply-accumulate with forward offset steps. -/
  | mac (c : CoreId) (acc : AccNo) (sx sy : SegNo) (px py : RegNo) (ix iy : BitVec 2) (q neg : Bool)
  /-- MACXB (R134). Dual-fetch MAC stepping the X offset backward. -/
  | macxb (c : CoreId) (acc : AccNo) (sx sy : SegNo) (px py : RegNo) (ix iy : BitVec 2) (q neg : Bool)
  /-- MACYB (R134). Dual-fetch MAC stepping the Y offset backward. -/
  | macyb (c : CoreId) (acc : AccNo) (sx sy : SegNo) (px py : RegNo) (ix iy : BitVec 2) (q neg : Bool)
  /-- MACB (R134). Dual-fetch MAC stepping both offsets backward. -/
  | macb (c : CoreId) (acc : AccNo) (sx sy : SegNo) (px py : RegNo) (ix iy : BitVec 2) (q neg : Bool)
  /-- ACLR (R135). Clear an accumulator. -/
  | aclr (c : CoreId) (acc : AccNo)
  /-- AMOVW (R135). Move a sign-extended word into an accumulator. -/
  | amovw (c : CoreId) (acc : AccNo) (ra : RegNo)
  /-- AMOVD (R135). Move a 64-bit register pair into an accumulator. -/
  | amovd (c : CoreId) (acc : AccNo) (ra rb : RegNo)
  /-- ASRA (R135). Arithmetic right shift of an accumulator. -/
  | asra (c : CoreId) (acc : AccNo) (rb : RegNo)
  /-- ARDL (R135). Read accumulator bits [31:0]. -/
  | ardl (c : CoreId) (rd : RegNo) (acc : AccNo)
  /-- ARDH (R135). Read accumulator bits [63:32]. -/
  | ardh (c : CoreId) (rd : RegNo) (acc : AccNo)
  /-- ARDX (R135). Read accumulator bits [71:64] sign-extended. -/
  | ardx (c : CoreId) (rd : RegNo) (acc : AccNo)
  /-- ASATI (R135). Saturating integer read of an accumulator. -/
  | asati (c : CoreId) (rd : RegNo) (acc : AccNo)
  /-- ASATQ (R135). Rounded saturating Q31 read of an accumulator. -/
  | asatq (c : CoreId) (rd : RegNo) (acc : AccNo)
  /-- BR (R138). Conditional branch on a b register with one delay slot. -/
  | br (c : CoreId) (bc : RegNo) (t : Bool) (disp : BitVec 20)
  /-- CALL (R105). Plain or instance call pushing the link stack. -/
  | call (c : CoreId) (ri : RegNo) (disp : BitVec 20)
  /-- RET (R106). Return popping the link stack, or ending the task at depth 0. -/
  | ret (c : CoreId) (at_ : Nat)
  /-- SLD (R139). Load s8 to s15 from the instance descriptor table. -/
  | sld (c : CoreId) (rd ra : RegNo) (imm : BitVec 12)
  /-- SMK (R139). Make a descriptor in s8 to s15 from a register pair. -/
  | smk (c : CoreId) (rd ra : RegNo)
  /-- SWL (R140). Load a system window word. -/
  | swl (c : CoreId) (rd : RegNo) (imm : BitVec 12) (at_ : Nat)
  /-- SWS (R140). Store a writable system window word. -/
  | sws (c : CoreId) (ra : RegNo) (imm : BitVec 12)
  /-- TB_LO_READ (R41). A read of TB_LO latches TB_HI for the reading core. -/
  | tbLoRead (c : CoreId) (rd : RegNo) (at_ : Nat)
  /-- EVT_FLAGS_READ (R140). A read of EVT_FLAGS clears the bits returned as one. -/
  | evtFlagsRead (c : CoreId) (rd : RegNo)
  /-- CSRR (R141). Read CSR. -/
  | csrr (c : CoreId) (rd : RegNo)
  /-- CSRW (R142). Replace CSR. -/
  | csrw (c : CoreId) (ra : RegNo)
  /-- CSRS (R142). Set CSR bits. -/
  | csrs (c : CoreId) (ra : RegNo)
  /-- CSRC (R142). Clear CSR bits. -/
  | csrc (c : CoreId) (ra : RegNo)
  /-- EVF (R141). Read and clear EVT_FLAGS. -/
  | evf (c : CoreId) (rd : RegNo)
  /-- EVTB (R141). Test and clear one EVT_FLAGS bit into a b register. -/
  | evtb (c : CoreId) (bd : RegNo) (k : Fin 8)
  /-- EVPB (R141). Test one EVT_PEND bit into a b register. -/
  | evpb (c : CoreId) (bd : RegNo) (k : Fin 8)
  /-- RCYC (R142). Read core cycles since the start of Phase L. -/
  | rcyc (c : CoreId) (rd : RegNo)
  /-- RLSD (R141). Read the link stack depth. -/
  | rlsd (c : CoreId) (rd : RegNo)
  /-- RCTX (R141). Read the context and task entry or slot. -/
  | rctx (c : CoreId) (rd : RegNo)
  /-- FADD (R144). Emulated binary32 add. -/
  | fadd (c : CoreId) (rd ra rb : RegNo)
  /-- FSUB (R144). Emulated binary32 subtract. -/
  | fsub (c : CoreId) (rd ra rb : RegNo)
  /-- FMUL (R144). Emulated binary32 multiply. -/
  | fmul (c : CoreId) (rd ra rb : RegNo)
  /-- FDIV (R144). Emulated binary32 divide. -/
  | fdiv (c : CoreId) (rd ra rb : RegNo)
  /-- FSQRT (R144). Emulated binary32 square root. -/
  | fsqrt (c : CoreId) (rd ra : RegNo)
  /-- FEQ (R144). Emulated binary32 equal compare into a b register. -/
  | feq (c : CoreId) (bd ra rb : RegNo)
  /-- FLT (R144). Emulated binary32 less-than compare. -/
  | flt (c : CoreId) (bd ra rb : RegNo)
  /-- FLE (R144). Emulated binary32 less-or-equal compare. -/
  | fle (c : CoreId) (bd ra rb : RegNo)
  /-- FUN (R144). Emulated unordered test. -/
  | fun (c : CoreId) (bd ra rb : RegNo)
  /-- FTOI (R145). Emulated binary32 to integer, truncated. -/
  | ftoi (c : CoreId) (rd ra : RegNo)
  /-- FTOIR (R145). Emulated binary32 to integer, rounded to nearest even. -/
  | ftoir (c : CoreId) (rd ra : RegNo)
  /-- ITOF (R143). Emulated signed integer to binary32. -/
  | itof (c : CoreId) (rd ra : RegNo)
  /-- UTOF (R143). Emulated unsigned integer to binary32. -/
  | utof (c : CoreId) (rd ra : RegNo)
  /-- DIV64U (R145). Emulated unsigned 64 by 32 divide. -/
  | div64u (c : CoreId) (rd ra rb : RegNo)
  /-- DIV64S (R145). Emulated signed 64 by 32 divide. -/
  | div64s (c : CoreId) (rd ra rb : RegNo)
  /-- EXCHANGE (R176). A privileged request starts an on-line program exchange from the inactive slot. -/
  | exchange (h : ReqHdr) (slot : Nat)
  /-- EXCHANGE_PAIR (R387). A privileged exchange in mode PAIR builds the new program's state in the standby. -/
  | exchangePair (h : ReqHdr) (slot : Nat)
  /-- EXCHANGE_PRELOAD (R178). The preload of new CODE sections into the idle banks completes and its measurement is checked. -/
  | exchangePreload
  /-- COMMIT_SEALED (R195). The last log line is written and HCRC and STATE = SEALED follow. -/
  | commitSealed (at_ : Nat)
  /-- COMMIT_APPLIED (R196). All home and journal lines are written, STATE = APPLIED and tick n is durable. -/
  | commitApplied (at_ : Nat)
  /-- RECOVER (R211). Before the first tick after a restart the retained state is recovered from the record directory, log and home image. -/
  | recover (at_ : Nat)
  /-- L_PLUS_PRESENT (R221). L+ becomes present after OFF and the hold-up bank starts charging. -/
  | lPlusPresent (mv : Nat) (carrier : Machine.Carrier)
  /-- RESET_RELEASE (R221). With L+ present 10 ms and the bank charged, the module leaves RESET and the boot ROM starts Cedar service. -/
  | resetRelease (bankMv : Nat) (at_ : Nat)
  /-- BOOT_RECORD_CHOOSE (R550). Both boot-record copies are read and the valid copy with the higher SEQ is chosen. -/
  | bootRecordChoose (ok : Bool) (at_ : Nat)
  /-- EXEC_VERIFY (R226). The executive firmware read completes and is measured and checked for signature and anti-rollback. -/
  | execVerify (ok : Bool) (at_ : Nat)
  /-- EXEC_REMEASURE (R225). At a level-1 restart the executive re-measures its code and turns a mismatch into a level-2 restart. -/
  | execRemeasure (ok : Bool) (at_ : Nat)
  /-- PROGRAM_LOAD (R226). The program sections are read, CODE placed in the banks and the image signature checked. -/
  | programLoad (ok : Bool) (at_ : Nat)
  /-- ROLE_AT_START (R369). At step 9 the module takes its pair role after waiting for a partner heartbeat. -/
  | roleAtStart (peer9 : Bool) (at_ : Nat)
  /-- GROUP_SUPPLY_LOST (R223). A group supply absent past its filter switches the group's outputs off and records event 16#0004. -/
  | groupSupplyLost (g : Fin 2) (mv : Nat) (at_ : Nat)
  /-- GROUP_SUPPLY_RETURN (R223). A group supply present again for 10 ms resumes its outputs at the next edge with event 16#0005. -/
  | groupSupplyReturn (g : Fin 2) (at_ : Nat)
  /-- POWER_FAIL (R240). L+ absent for 50 µs starts the power-fail sequence. -/
  | powerFail (busy : BusBusy) (at_ : Nat)
  /-- POWER_FAIL_END (R243). At the end of the power-fail sequence the module enters RESET and starts with kind 5 if L+ is present. -/
  | powerFailEnd (back : Option Nat) (at_ : Nat)
  /-- BANK_EMPTY (R243). The bank falling below 15.0 V in RESET makes the module OFF. -/
  | bankEmpty (at_ : Nat)
  /-- FAULT_RESTART (R497). At the Phase O after a C2, C3 or C4 detection the executive stops outputs and enters RESET. -/
  | faultRestart (busy : BusBusy)
  /-- WAKE_SOURCE (R238). An enabled clock alarm or DI24 to DI31 change wakes the module from DORMANT into a start of kind 4. -/
  | wakeSource (bit : Fin 10) (at_ : Nat)
  /-- UPSTREAM_FRAME (R267). An upstream frame arrives, is checked and its sections timestamped and counted. -/
  | upstreamFrame (k : Fin 16) (bytes : List Byte) (arr : List Nat) (at_ : Nat)
  /-- SAFE_BURST_FRAME (R283). One of 8 SAFE frames at 50 µs spacing is sent independently of the tick. -/
  | safeBurstFrame (k : Fin 16)
  /-- LISTEN_FRAME (R284). In LISTEN a downstream frame of the active module is received, checked and counted. -/
  | listenFrame (k : Fin 16) (ok : Bool) (at_ : Nat)
  /-- LINK_ENABLE_WRITE (R265). A write of LINK[k].ENABLE enables the link under the timing check or disables it after a safe burst. -/
  | linkEnableWrite (k : Fin 16) (v : Bool)
  /-- ENC_TRANSITION (R292). A filtered A or B transition is timestamped and counted. -/
  | encTransition (k : Fin 4) (a b z : Bool) (at_ : Nat)
  /-- ENC_INDEX (R295). A rising Z edge is timestamped, triggers its event source and takes the index while counting up. -/
  | encIndex (k : Fin 4) (at_ : Nat) (cyc : Nat)
  /-- ENC_LINE_BREAK (R293). A receiver below 200 mV for 1 µs reports a line break. -/
  | encLineBreak (k : Fin 4) (line : Fin 3) (at_ : Nat)
  /-- SERIAL_REQUEST (R297). At edge - LEAD a serial request starts and its first clock transition is the sample instant. -/
  | serialRequest (k : Fin 4)
  /-- SERIAL_SAMPLE (R298). A completed SSI or BiSS-C frame is checked and becomes a good or bad sample. -/
  | serialSample (k : Fin 4) (start : Bool) (data : BitVec 40) (nE nW : Bool) (crc : BitVec 6) (at_ : Nat)
  /-- ENC_ENABLE_WRITE (R317). A write of ENC[k].ENABLE enables the port, refused when LEAD + TMONO > T. -/
  | encEnableWrite (k : Fin 4) (v : Bool)
  /-- ENC_MODE_WRITE (R294). A write of MODE or INVERT sets the count to 0. -/
  | encModeWrite (k : Fin 4) (inv : Bool) (v : Word)
  /-- ENC_SUPPLY_OVERLOAD (R291). An encoder supply overload limits current and sets SUP. -/
  | encSupplyOverload (k : Fin 4) (at_ : Nat)
  /-- LOOP_UPDATE (R330). A due loop's 160 ns update computes y, the reference and u and writes U and its records. -/
  | loopUpdate
  /-- LOOP_ENABLE_WRITE (R337). A write of LOOP[n].ENABLE enables the loop to OPEN or disables it, applied in Phase O. -/
  | loopEnableWrite (n : Fin 96) (v : Bool)
  /-- TUNE_START (R346). A privileged request starts a tune run on a loop. -/
  | tuneStart (h : ReqHdr) (n : Nat)
  /-- TUNE_STOP (R346). The starting session stops its tune run. -/
  | tuneStop (h : ReqHdr) (n : Nat)
  /-- TUNE_APPLY (R356). A privileged request writes a PROPOSED proposal to the loop's coefficients. -/
  | tuneApply (h : ReqHdr) (n : Nat)
  /-- CAPTURE_START (R352). A privileged request starts a capture of four loop signals. -/
  | captureStart (h : ReqHdr) (n : Nat) (sel : List Nat) (dec count : Nat)
  /-- CAPTURE_RELEASE (R352). The owning session sets the capture memory IDLE. -/
  | captureRelease (h : ReqHdr)
  /-- SUP_BASELINE (R358). A privileged request sets the supervision baseline from the next window. -/
  | supBaseline (h : ReqHdr) (n : Nat)
  /-- IDENT_COMPLETE (R353). Identification finishes the model fit and proposal. -/
  | identComplete (at_ : Nat)
  /-- HB_RECEIVE (R366). An intact heartbeat keeps its lane UP, renews the lease and aligns a standby's edges. -/
  | hbReceive (lane : Fin 2) (intact : Bool) (hb : Hb) (delay : Nat) (at_ : Nat)
  /-- LANE_NOSIG (R366). No symbol lock for 10 µs makes a lane NOSIG. -/
  | laneNosig (lane : Fin 4) (at_ : Nat)
  /-- LEASE_EXPIRY (R371). At the lease expiry the active module's Pearl gate releases nothing. -/
  | leaseExpiry (busy : BusBusy)
  /-- LEASE_DEADLINE (R372). At the standby's deadline it takes the Pearl or is withheld by the witness. -/
  | leaseDeadline (at_ : Nat)
  /-- RELEASE_RECEIVE (R375). A RELEASE packet entitles the standby to take the Pearl at its first edge at least T later. -/
  | releaseReceive (lane : Fin 2) (intact : Bool) (tick ts : Nat) (at_ : Nat)
  /-- LINE_RECEIVE (R205). The standby receives a mirrored LINE packet and writes it through its commit engine. -/
  | lineReceive (lane : Fin 2) (intact : Bool) (index tag : Nat) (line : List Byte) (at_ : Nat)
  /-- SEAL_RECEIVE (R380). A SEAL packet closes the mirrored record, checked for continuity. -/
  | sealReceive (lane : Fin 2) (intact : Bool) (sm : SealMsg) (st : Machine.RetState) (at_ : Nat)
  /-- CONF_RECEIVE (R210). A mirror confirmation arrives and releases acknowledgements of its tick. -/
  | confReceive (lane : Fin 2) (intact : Bool) (tick : Nat) (at_ : Nat)
  /-- SYNC_RECEIVE (R381). A SYNC packet is written directly to the partner's home image or journal. -/
  | syncReceive (lane : Fin 2) (intact : Bool) (dest : Nat) (line : List Byte) (st : Option Machine.RetState) (at_ : Nat)
  /-- CTRL_STEP_SWAP (R386). A CTRL packet with the swap step announces a handover. -/
  | ctrlStepSwap (lane : Fin 2) (intact : Bool) (tick : Nat) (at_ : Nat)
  /-- CTRL_STEP_EXCHANGE (R388). A CTRL packet with the exchange step starts the standby's preload and translation. -/
  | ctrlStepExchange (lane : Fin 2) (intact : Bool) (tick : Nat) (at_ : Nat)
  /-- PAIR_SWAP (R386). A privileged request hands the Pearl to the STANDBY partner. -/
  | pairSwap (h : ReqHdr)
  /-- JHB_RECEIVE (R397). An intact join heartbeat updates the follower's edge prediction and join checks. -/
  | jhbReceive (lane : Fin 2) (intact : Bool) (jhb : Jhb) (delay : Nat) (at_ : Nat)
  /-- XSEG_RECEIVE (R401). An exchange stream segment arrives on a J lane. -/
  | xsegReceive (lane : Fin 2) (intact : Bool) (tick : Nat) (seg : Nat) (data : List Byte) (at_ : Nat)
  /-- XEND_RECEIVE (R401). The XEND packet completes an exchange stream checked by its CRC. -/
  | xendReceive (lane : Fin 2) (intact : Bool) (tick len crc : Nat) (at_ : Nat)
  /-- JCTRL_SAFE (R404). A JCTRL SAFE makes the other member enter SAFE at its next edge. -/
  | jctrlSafe (lane : Fin 2) (intact : Bool) (at_ : Nat)
  /-- JCTRL_HOLD (R404). A JCTRL HOLD makes both members enter HELD and migrate for a joined exchange. -/
  | jctrlHold (lane : Fin 2) (intact : Bool) (tick : Nat) (at_ : Nat)
  /-- JCTRL_MAPDONE (R404). A JCTRL MAPDONE reports that a member completed its map. -/
  | jctrlMapdone (lane : Fin 2) (intact : Bool) (tick : Nat) (at_ : Nat)
  /-- JCTRL_STOP (R405). A JCTRL STOP makes the receiver declare the join lost. -/
  | jctrlStop (lane : Fin 2) (intact : Bool) (at_ : Nat)
  /-- JCTRL_ENTITLED (R408). A JCTRL ENTITLED reports that the quad partner is entitled to the Pearl. -/
  | jctrlEntitled (lane : Fin 2) (intact : Bool) (tick : Nat) (at_ : Nat)
  /-- QUAD_WAIT (R408). A member entitled alone for (LEASE + 2) × T sets QWAIT and records 16#6017. -/
  | quadWait (at_ : Nat)
  /-- CAN_FRAME_RECEIVE (R417). A valid CAN frame is timestamped and routed by the first matching filter. -/
  | canFrameReceive (m : Fin 4) (f : CanFrame) (at_ : Nat) (cyc : Nat)
  /-- RTR_RECEIVE (R414). A remote frame is acknowledged, counted and not stored. -/
  | rtrReceive (m : Fin 4) (at_ : Nat)
  /-- WINDOW_START (R425). At a window start unsent frames are withdrawn and the window's frames entered. -/
  | windowStart (m : Fin 4) (begun : Option (Fin 16))
  /-- CAN_FRAME_SENT (R425). A frame is sent successfully and its TXDONE bit set. -/
  | canFrameSent (m : Fin 4) (i : Fin 16) (at_ : Nat)
  /-- BUS_ERROR (R428). A protocol error updates the error counters. -/
  | busError (m : Fin 4) (tec rec : Nat) (at_ : Nat)
  /-- BUS_OFF_WAIT_END (R428). After BOFF_WAIT ticks bus-off recovery begins. -/
  | busOffWaitEnd (m : Fin 4)
  /-- BUS_OFF_RECOVERED (R428). 128 × 11 recessive bits complete recovery to error active. -/
  | busOffRecovered (m : Fin 4) (at_ : Nat)
  /-- BUS_ENABLE_WRITE (R430). A write of BUS[k].ENABLE enables the controller under its configuration checks. -/
  | busEnableWrite (m : Fin 4) (v : Bool)
  /-- DI_FILTER_CHANGE (R437). An input's filtered state changes at a sample instant. -/
  | diFilterChange (i : Fin 32) (cyc : Nat)
  /-- WIRE_BREAK (R438). Input current below threshold for 10 ms declares a wire break. -/
  | wireBreak (i : Fin 24) (at_ : Nat)
  /-- WIRE_BREAK_CLEAR (R438). Input current above threshold for 10 ms clears a wire break. -/
  | wireBreakClear (i : Fin 24) (at_ : Nat)
  /-- OUTPUT_OVERLOAD (R446). Current limit for 2 ms or a thermal trip switches an output off. -/
  | outputOverload (i : Fin 32) (at_ : Nat)
  /-- RETRY_WAIT_END (R447). After RETRY_MS the overloaded channel tries again at the next edge. -/
  | retryWaitEnd (i : Fin 32)
  /-- OPEN_LOAD (R449). Load current below 5 mA for 10 ms sets OPENLD. -/
  | openLoad (i : Fin 32) (at_ : Nat)
  /-- OPEN_LOAD_CLEAR (R449). Load current at 5 mA or more for 10 ms clears OPENLD. -/
  | openLoadClear (i : Fin 32) (at_ : Nat)
  /-- DIO_ENABLE_WRITE (R436). A write of DIO.ENABLE enables outputs and diagnostics and restarts the filters. -/
  | dioEnableWrite (v : Bool)
  /-- LINE_WRITE_END (R457). A line write ends after TRST + TSEL + TEVO and the next-line position advances. -/
  | lineWriteEnd
  /-- RAILS_READY (R456). All four rails within ±5 % for 1 ms let the drivers work. -/
  | railsReady (mv : List Int) (at_ : Nat)
  /-- RAIL_FAULT (R456). A rail outside ±10 % for 1 ms puts the driver in FAULT and discharges the rails. -/
  | railFault (rail : Fin 4) (mv : Int) (at_ : Nat)
  /-- RAIL_IDLE_EXPIRY (R456). No line due for RAIL_IDLE ms discharges the rails. -/
  | railIdleExpiry
  /-- RAIL_DISCHARGE_END (R459). A rail discharge completes and waiting rail starts may proceed. -/
  | railDischargeEnd (mv : List Int) (at_ : Nat)
  /-- BLINK_PHASE (R464). Every BLINK_MS a blinking region changes phase and is requested. -/
  | blinkPhase (r : Fin 16)
  /-- PANEL_ENABLE_WRITE (R468). A write of PANEL.ENABLE enables the driver under its checks or stops it. -/
  | panelEnableWrite (v : Bool)
  /-- CALENDAR_SECOND (R471). The calendar enters a new second and evaluates the alarms. -/
  | calendarSecond (at_ : Nat) (cyc : Nat)
  /-- SET_CMD (R476). A write of 1 to SET_CMD applies the SET words whole or refuses them. -/
  | setCmd (v : Word) (sub : Nat) (at_ : Nat) (cyc : Nat)
  /-- RTC_TIME_READ (R475). A session's read of a time field freezes or uses its shadow; YEAR releases it. -/
  | rtcTimeRead (slot : Fin 8) (w : Fin 10) (sub : Nat) (at_ : Nat)
  /-- SHADOW_RELEASE (R475). 1 ms after the freezing read the session's shadow is released. -/
  | shadowRelease (slot : Fin 8)
  /-- CLOCK_BACKUP_SWITCH (R482). The internal rail below 2.70 V switches the clock to the supercapacitor or VBAK. -/
  | clockBackupSwitch (mv : Nat) (at_ : Nat)
  /-- CLOCK_RAIL_RETURN (R482). The internal rail above 2.78 V switches the clock back and charging resumes. -/
  | clockRailReturn (mv : Nat) (at_ : Nat)
  /-- CLOCK_DOMAIN_RESET (R484). The backup source below 1.60 V resets the clock domain to 2000-01-01. -/
  | clockDomainReset
  /-- CEDAR_WATCHDOG_SERVICE (R491). The Cedar provider services the watchdog 247 µs after each Cedar edge. -/
  | cedarWatchdogService (t : Nat) (at_ : Nat)
  /-- WATCHDOG_EXPIRY (R495). The count reaching W_CLOSE captures state, halts the module, stops outputs and enters RESET. -/
  | watchdogExpiry (busy : BusBusy) (at_ : Nat)
  /-- EVENT_RECORD_WRITE (R513). The recorder writes the next queued occurrence as a record, or adds to an open burst's REPEAT. -/
  | eventRecordWrite
  /-- BURST_CLOSE (R515). BURST_MS without a matching occurrence closes a burst. -/
  | burstClose
  /-- RING_SCAN (R516). At release from RESET the boot ROM reads the ring and finds the newest record. -/
  | ringScan
  /-- EVR_CLEAR (R520). A write of 1 to EVR.CLEAR discards every record in Phase O and records 16#0009. -/
  | evrClear (slot : Fin 8)
  /-- EVR_WINDOW_READ (R517). A request reading WIN words is served from one copy of 256 ring bytes. -/
  | evrWindowRead (slot : Fin 8) (i : Fin 64)
  /-- RC_READ (R541). A READ of an RC word clears the bits it returns as one unless NOCLR. -/
  | rcRead (slot : Fin 8) (blk word : Half) (noClr : Bool) (sub : Nat)
  /-- REGISTER_WRITE (R542). A WRITE item to a word with no behaviour of its own is ignored, rejected or applied. -/
  | registerWrite (slot : Fin 8) (item : WriteItem) (sub : Nat)
  /-- HELLO (R529). A HELLO opens a session and is answered by a signed HELLO_REPLY. -/
  | hello (ip : Word) (port : Half) (body : List Byte) (at_ : Nat)
  /-- READ (R539). A READ request returns COUNT parameter words taken at one instant. -/
  | read (h : ReqHdr) (blk word count flags : Nat) (sub : Nat)
  /-- WRITE (R542). A WRITE request applies its items in Phase O in item order. -/
  | write (h : ReqHdr) (items : List WriteItem) (sub : Nat)
  /-- EDIT (R163). A privileged value-edit batch is queued for application. -/
  | edit (h : ReqHdr) (items : List EditItem)
  /-- FORCE_SET (R169). A privileged request sets or replaces a force. -/
  | forceSet (h : ReqHdr) (item : EditItem)
  /-- FORCE_RELEASE (R169). A privileged request releases a force. -/
  | forceRelease (h : ReqHdr) (item : EditItem)
  /-- CLOSE (R532). A CLOSE request frees the session slot. -/
  | close (h : ReqHdr)
  /-- AUTH (R531). An AUTH request makes the session privileged when key and signature verify. -/
  | auth (h : ReqHdr) (key sig : List Byte)
  /-- RESTART (R225). A privileged request makes an uncounted level-2 restart after acknowledgement. -/
  | restart (h : ReqHdr)
  /-- COLD_START (R225). A privileged request sets the cold-start command and restarts cold. -/
  | coldStart (h : ReqHdr)
  /-- CEDAR_HOLD (R235). A privileged request sets or clears the Cedar hold flag. -/
  | cedarHold (h : ReqHdr) (set : Bool)
  /-- DORMANT (R236). A privileged request puts a SOLO module into DORMANT. -/
  | dormant (h : ReqHdr)
  /-- WAKE (R238). A privileged request wakes the module from DORMANT. -/
  | wake (h : ReqHdr)
  /-- SAFE_ENTER (R503). A privileged request enters SAFE at the next edge. -/
  | safeEnter (h : ReqHdr)
  /-- SAFE_RELEASE (R505). A privileged request clears the SAFE flag and restarts. -/
  | safeRelease (h : ReqHdr)
  /-- SESSION_TIMEOUT (R532). A session idle for SESS_TO seconds closes. -/
  | sessionTimeout (slot : Fin 8) (at_ : Nat)
  /-- AUTH_LOCKOUT_END (R531). The 60 s AUTH lockout ends. -/
  | authLockoutEnd (at_ : Nat)
  /-- GRATUITOUS_ARP (R525). The new Pearl holder announces the shared address three times 200 ms apart. -/
  | gratuitousArp
  /-- ARP_REQUEST (R523). An ARP request for a module address is answered. -/
  | arpRequest (target sender : Word) (at_ : Nat)
  /-- ICMP_ECHO (R523). An ICMP echo request is answered. -/
  | icmpEcho (dst src : Word) (data : List Byte) (at_ : Nat)
  /-- DATAGRAM_DISCARD (R523). Fragments, tagged frames, other UDP ports and queue overflows are discarded without reply. -/
  | datagramDiscard (full : Bool) (at_ : Nat)
  /-- SWITCH_FORWARD (R522). The internal switch forwards a frame between X10 and X11. -/
  | switchForward (port : Fin 2) (frame : List Byte) (at_ : Nat)
  /-- UPD_OPEN (R564). A privileged request opens an update of the inactive slot and starts erasing. -/
  | updOpen (h : ReqHdr) (slot : Nat) (resume : Bool) (len : Nat)
  /-- UPD_BLOCK (R565). A privileged request writes one block of the update. -/
  | updBlock (h : ReqHdr) (ofs : Nat) (data : List Byte)
  /-- UPD_VERIFY (R562). A privileged request verifies the updated slot. -/
  | updVerify (h : ReqHdr)
  /-- UPD_CLOSE (R569). The holder releases the update. -/
  | updClose (h : ReqHdr)
  /-- ACTIVATE (R570). A privileged request writes the boot record naming a verified slot. -/
  | activate (h : ReqHdr) (slot mode : Nat) (migrate : Bool)
  /-- IDENTITY (R572). Returns the device identity key, serial, issue, grade and certificate. -/
  | identity (h : ReqHdr)
  /-- ATTEST (R573). Returns a signed attestation report over a challenge. -/
  | attest (h : ReqHdr) (challenge : List Byte)
  /-- OWNER_ENROLL (R559). Writes an empty owner key slot in OTP. -/
  | ownerEnroll (h : ReqHdr) (key : List Byte) (slot : Nat) (sig : List Byte)
  /-- OWNER_REVOKE (R559). Permanently revokes an owner key slot. -/
  | ownerRevoke (h : ReqHdr) (slot : Nat)
  /-- ROLLBACK_ADVANCE (R560). Blows anti-rollback fuses up to the running image's step. -/
  | rollbackAdvance (h : ReqHdr) (step : Nat)
  /-- SECTOR_ERASE_END (R564). A slot sector erase completes and ERASED_TO advances. -/
  | sectorEraseEnd (ok : Bool) (at_ : Nat)
  /-- BLOCK_PROGRAM_END (R566). Programming and read-back of a block complete and the block's result is written. -/
  | blockProgramEnd (ok : Bool) (at_ : Nat)
  /-- VERIFY_END (R562). Verification of the slot completes with its result code. -/
  | verifyEnd (ok : Bool) (at_ : Nat)
  /-- ACTIVATION_WRITE_END (R551). The boot-record copy read-back matches and the activation is complete. -/
  | activationWriteEnd (ok : Bool) (at_ : Nat)
  /-- CARRIER_RECOVERY_STEP (R568). One recorded step of recovering an interrupted carrier operation completes. -/
  | carrierRecoveryStep (ok : Bool) (at_ : Nat)
  /-- UPDATE_IDLE_TIMEOUT (R569). 60 s without an update request of the holder releases the update. -/
  | updateIdleTimeout (at_ : Nat)
  /-- L_PLUS_RETURN (R243). L+ becomes present again while the module waits in RESET after a power-fail sequence with the bank still above 15.0 V, and a start of kind 5 follows. -/
  | lPlusReturn (at_ : Nat)
  /-- RAW_LEVEL_CHANGE (R439). The raw comparator level of a digital input changes, updating the raw-edge stamp of DI24 to DI31 and the level the filter samples. -/
  | rawLevelChange (i : Fin 32) (v : Bool) (at_ : Nat)
  /-- ENC_LINE_RETURN (R293). An encoder receiver whose line was broken regains a differential input above 200 mV and the break ends. -/
  | encLineReturn (k : Fin 4) (line : Fin 3) (at_ : Nat)
  /-- LANE_SYMBOL_LOCK (R366). A Rinkaset lane that was NOSIG gains symbol lock and becomes SILENT before any intact heartbeat arrives. -/
  | laneSymbolLock (lane : Fin 4) (at_ : Nat)
  /-- PORT_LINK_CHANGE (R545). An external Ethernet port X10 or X11 gains or loses its link or renegotiates speed and duplex, changing HOST.PORTS. -/
  | portLinkChange (port : Fin 2) (speed : Fin 4) (full : Bool) (at_ : Nat)
  /-- ARBITRATION_LOST (R425). A frame the controller is sending loses arbitration on the bus, ARBLOST_CNT increments and the frame is retried automatically. -/
  | arbitrationLost (m : Fin 4) (i : Fin 16) (at_ : Nat)
  /-- RETRY_HOLD_END (R447). A retried output holds for RETRY_MS without overload, which clears OVL and resets the failure count. -/
  | retryHoldEnd (i : Fin 32)
  /-- TRICKLE_CHARGE_END (R482). The supercapacitor reaches 3.00 V and its trickle charge ends, clearing RTC.CHARGE. -/
  | trickleChargeEnd (mv : Nat) (at_ : Nat)
  /-- BIT_ERROR (R36). A word of shared SRAM, an X, Y or instruction bank, or an MRAM line takes a single-bit or double-bit error that a later read or rebuild finds. -/
  | bitError (kind addr : Nat) (double : Bool)
  deriving DecidableEq, Repr

end Sys2Proof
end

