-- ==== Sys2Proof/Decode.lean ====
section
/-! DEFINITION. The words of the commands that are instructions of a logic core (R95 to R97, R118 to R143), both
ways; and the host's reading of a table word. -/

namespace Sys2Proof

/-- No row of the operation table gives its command any bits, so no word spells a command. -/
def decodeTableWord (_nbits _w : Nat) : Option Instr := none

/-- Format R, and format B with its three register fields (Table 3-6). -/
def fmtR (op rd ra rb fn : Nat) : Word := BitVec.ofNat 32 (op * 2 ^ 26 + rd * 2 ^ 21 + ra * 2 ^ 16 + rb * 2 ^ 11 + fn)
/-- Format I. -/
def fmtI (op rd ra imm : Nat) : Word := BitVec.ofNat 32 (op * 2 ^ 26 + rd * 2 ^ 21 + ra * 2 ^ 16 + imm)
/-- Formats M and S: a 4-bit SG or SUB and a 12-bit field. -/
def fmtM (op rt ra sg disp : Nat) : Word := BitVec.ofNat 32 (op * 2 ^ 26 + rt * 2 ^ 21 + ra * 2 ^ 16 + sg * 2 ^ 12 + disp)
/-- Formats J and C: a register, bit 20, DISP20. -/
def fmtJ (op r t disp : Nat) : Word := BitVec.ofNat 32 (op * 2 ^ 26 + r * 2 ^ 21 + t * 2 ^ 20 + disp)
/-- Format A. -/
def fmtA (op acc sx sy px py ix iy q neg : Nat) : Word :=
  BitVec.ofNat 32 (op * 2 ^ 26 + acc * 2 ^ 24 + sx * 2 ^ 20 + sy * 2 ^ 16 + px * 2 ^ 11 + py * 2 ^ 6 + ix * 2 ^ 4 + iy * 2 ^ 2
    + q * 2 + neg)

/-- The word of a core's instruction (Tables 4-1 to 4-17); none for the other commands.
A form that R127, R128, R132, R139 or R143 makes illegal has a word too; `Instr.wf` excludes it.
The illegal instruction carries its own word. -/
def encode : Instr → Option Word
  | .nop _ => some 0
  | .jr _ ra imm => some (fmtM 0x00 0 ra 1 imm.toNat)
  | .band _ bd ba bb => some (fmtR 0x01 bd ba bb 0)
  | .bor _ bd ba bb => some (fmtR 0x01 bd ba bb 1)
  | .bxor _ bd ba bb => some (fmtR 0x01 bd ba bb 2)
  | .bandn _ bd ba bb => some (fmtR 0x01 bd ba bb 3)
  | .born _ bd ba bb => some (fmtR 0x01 bd ba bb 4)
  | .bnand _ bd ba bb => some (fmtR 0x01 bd ba bb 5)
  | .bnor _ bd ba bb => some (fmtR 0x01 bd ba bb 6)
  | .bxnor _ bd ba bb => some (fmtR 0x01 bd ba bb 7)
  | .ceq _ bd ra rb => some (fmtR 0x02 bd ra rb 0)
  | .cne _ bd ra rb => some (fmtR 0x02 bd ra rb 1)
  | .clt _ bd ra rb => some (fmtR 0x02 bd ra rb 2)
  | .cge _ bd ra rb => some (fmtR 0x02 bd ra rb 3)
  | .cltu _ bd ra rb => some (fmtR 0x02 bd ra rb 4)
  | .cgeu _ bd ra rb => some (fmtR 0x02 bd ra rb 5)
  | .cnz _ bd ra => some (fmtR 0x02 bd ra 0 6)
  | .ctst _ bd ra rb => some (fmtR 0x02 bd ra rb 7)
  | .tbi _ bd ra k => some (fmtR 0x03 bd ra k 0)
  | .tbr _ bd ra rb => some (fmtR 0x03 bd ra rb 1)
  | .btog _ rd ba => some (fmtR 0x03 rd ba 0 2)
  | .bins _ rd ba k => some (fmtR 0x03 rd ba k 3)
  | .add _ rd ra rb => some (fmtR 0x04 rd ra rb 0)
  | .sub _ rd ra rb => some (fmtR 0x04 rd ra rb 1)
  | .addv _ rd ra rb => some (fmtR 0x04 rd ra rb 2)
  | .subv _ rd ra rb => some (fmtR 0x04 rd ra rb 3)
  | .adds _ rd ra rb => some (fmtR 0x04 rd ra rb 4)
  | .subs _ rd ra rb => some (fmtR 0x04 rd ra rb 5)
  | .addsu _ rd ra rb => some (fmtR 0x04 rd ra rb 6)
  | .subsu _ rd ra rb => some (fmtR 0x04 rd ra rb 7)
  | .abss _ rd ra => some (fmtR 0x04 rd ra 0 8)
  | .and _ rd ra rb => some (fmtR 0x05 rd ra rb 0)
  | .or _ rd ra rb => some (fmtR 0x05 rd ra rb 1)
  | .xor _ rd ra rb => some (fmtR 0x05 rd ra rb 2)
  | .andn _ rd ra rb => some (fmtR 0x05 rd ra rb 3)
  | .orn _ rd ra rb => some (fmtR 0x05 rd ra rb 4)
  | .xnor _ rd ra rb => some (fmtR 0x05 rd ra rb 5)
  | .nor _ rd ra rb => some (fmtR 0x05 rd ra rb 6)
  | .min _ rd ra rb => some (fmtR 0x06 rd ra rb 0)
  | .max _ rd ra rb => some (fmtR 0x06 rd ra rb 1)
  | .minu _ rd ra rb => some (fmtR 0x06 rd ra rb 2)
  | .maxu _ rd ra rb => some (fmtR 0x06 rd ra rb 3)
  | .sel _ rd ra rb bc => some (fmtR 0x06 rd ra rb (0x20 + bc))
  | .slt _ rd ra rb => some (fmtR 0x07 rd ra rb 0)
  | .sltu _ rd ra rb => some (fmtR 0x07 rd ra rb 1)
  | .addi _ rd ra imm => some (fmtI 0x08 rd ra imm.toNat)
  | .addsi _ rd ra imm => some (fmtI 0x09 rd ra imm.toNat)
  | .andi _ rd ra imm => some (fmtI 0x0A rd ra imm.toNat)
  | .ori _ rd ra imm => some (fmtI 0x0B rd ra imm.toNat)
  | .xori _ rd ra imm => some (fmtI 0x0C rd ra imm.toNat)
  | .orhi _ rd ra imm => some (fmtI 0x0D rd ra imm.toNat)
  | .slti _ rd ra imm => some (fmtI 0x0E rd ra imm.toNat)
  | .sltiu _ rd ra imm => some (fmtI 0x0F rd ra imm.toNat)
  | .sll _ rd ra rb => some (fmtR 0x10 rd ra rb 0)
  | .srl _ rd ra rb => some (fmtR 0x10 rd ra rb 1)
  | .sra _ rd ra rb => some (fmtR 0x10 rd ra rb 2)
  | .ror _ rd ra rb => some (fmtR 0x10 rd ra rb 3)
  | .shi _ rd ra kind k => some (fmtI 0x11 rd ra (kind.toNat * 32 + k))
  | .ext _ rd ra sx w1 pos => some (fmtI 0x12 rd ra (sx.toNat * 1024 + w1 * 32 + pos))
  | .ins _ rd ra w1 pos => some (fmtI 0x13 rd ra (w1 * 32 + pos))
  | .ldb _ rt ra sg disp => some (fmtM 0x14 rt ra sg disp.toNat)
  | .ldh _ rt ra sg disp => some (fmtM 0x15 rt ra sg disp.toNat)
  | .ldw _ rt ra sg disp => some (fmtM 0x16 rt ra sg disp.toNat)
  | .stb _ rt ra sg disp => some (fmtM 0x17 rt ra sg disp.toNat)
  | .sth _ rt ra sg disp => some (fmtM 0x18 rt ra sg disp.toNat)
  | .stw _ rt ra sg disp => some (fmtM 0x19 rt ra sg disp.toNat)
  | .ldp _ rt ra sg sz stp => some (fmtM 0x1A rt ra sg (sz.toNat * 1024 + stp.toNat))
  | .stp _ rt ra sg sz stp => some (fmtM 0x1B rt ra sg (sz.toNat * 1024 + stp.toNat))
  | .mul _ rd ra rb => some (fmtR 0x1C rd ra rb 0)
  | .mulhs _ rd ra rb => some (fmtR 0x1C rd ra rb 1)
  | .mulhu _ rd ra rb => some (fmtR 0x1C rd ra rb 2)
  | .mulq _ rd ra rb => some (fmtR 0x1C rd ra rb 3)
  | .divs _ rd ra rb => some (fmtR 0x1D rd ra rb 0)
  | .divu _ rd ra rb => some (fmtR 0x1D rd ra rb 1)
  | .mac _ acc sx sy px py ix iy q neg => some (fmtA 0x20 acc sx sy px py ix.toNat iy.toNat q.toNat neg.toNat)
  | .macxb _ acc sx sy px py ix iy q neg => some (fmtA 0x21 acc sx sy px py ix.toNat iy.toNat q.toNat neg.toNat)
  | .macyb _ acc sx sy px py ix iy q neg => some (fmtA 0x22 acc sx sy px py ix.toNat iy.toNat q.toNat neg.toNat)
  | .macb _ acc sx sy px py ix iy q neg => some (fmtA 0x23 acc sx sy px py ix.toNat iy.toNat q.toNat neg.toNat)
  | .aclr _ acc => some (fmtR 0x24 0 0 0 acc)
  | .amovw _ acc ra => some (fmtR 0x24 0 ra 0 (4 + acc))
  | .amovd _ acc ra rb => some (fmtR 0x24 0 ra rb (8 + acc))
  | .asra _ acc rb => some (fmtR 0x24 0 0 rb (12 + acc))
  | .ardl _ rd acc => some (fmtR 0x25 rd 0 0 (0 + acc))
  | .ardh _ rd acc => some (fmtR 0x25 rd 0 0 (4 + acc))
  | .ardx _ rd acc => some (fmtR 0x25 rd 0 0 (8 + acc))
  | .asati _ rd acc => some (fmtR 0x27 rd 0 0 (0 + acc))
  | .asatq _ rd acc => some (fmtR 0x27 rd 0 0 (4 + acc))
  | .br _ bc t disp => some (fmtJ 0x28 bc t.toNat disp.toNat)
  | .call _ ri disp => some (fmtJ 0x2C ri 0 disp.toNat)
  | .ret _ _ => some (fmtM 0x2D 0 0 0 0)
  | .sld _ rd ra imm => some (fmtM 0x2E rd ra 0 imm.toNat)
  | .smk _ rd ra => some (fmtM 0x2E rd ra 1 0)
  | .swl _ rd imm _ => some (fmtM 0x2F rd 0 0 imm.toNat)
  | .sws _ ra imm => some (fmtM 0x2F 0 ra 1 imm.toNat)
  | .tbLoRead _ rd _ => some (fmtM 0x2F rd 0 0 0)
  | .evtFlagsRead _ rd => some (fmtM 0x2F rd 0 0 0x40)
  | .csrr _ rd => some (fmtM 0x30 rd 0 0 0)
  | .csrw _ ra => some (fmtM 0x30 0 ra 1 0)
  | .csrs _ ra => some (fmtM 0x30 0 ra 2 0)
  | .csrc _ ra => some (fmtM 0x30 0 ra 3 0)
  | .evf _ rd => some (fmtM 0x31 rd 0 0 0)
  | .evtb _ bd k => some (fmtM 0x31 bd 0 1 k)
  | .evpb _ bd k => some (fmtM 0x31 bd 0 2 k)
  | .rcyc _ rd => some (fmtM 0x32 rd 0 0 0)
  | .rlsd _ rd => some (fmtM 0x32 rd 0 1 0)
  | .rctx _ rd => some (fmtM 0x32 rd 0 2 0)
  | .fadd _ rd ra rb => some (fmtR 0x38 rd ra rb 0)
  | .fsub _ rd ra rb => some (fmtR 0x38 rd ra rb 1)
  | .fmul _ rd ra rb => some (fmtR 0x39 rd ra rb 0)
  | .fdiv _ rd ra rb => some (fmtR 0x3A rd ra rb 0)
  | .fsqrt _ rd ra => some (fmtR 0x3B rd ra 0 0)
  | .feq _ bd ra rb => some (fmtR 0x3C bd ra rb 0)
  | .flt _ bd ra rb => some (fmtR 0x3C bd ra rb 1)
  | .fle _ bd ra rb => some (fmtR 0x3C bd ra rb 2)
  | .fun _ bd ra rb => some (fmtR 0x3C bd ra rb 3)
  | .ftoi _ rd ra => some (fmtR 0x3D rd ra 0 0)
  | .ftoir _ rd ra => some (fmtR 0x3D rd ra 0 1)
  | .itof _ rd ra => some (fmtR 0x3D rd ra 0 2)
  | .utof _ rd ra => some (fmtR 0x3D rd ra 0 3)
  | .div64u _ rd ra rb => some (fmtR 0x3E rd ra rb 0)
  | .div64s _ rd ra rb => some (fmtR 0x3E rd ra rb 1)
  | .illegalInstruction _ w => some w
  | _ => none

/-- A register number out of a field. -/
def regAt (n lo : Nat) : RegNo := ⟨n / 2 ^ lo % 32, Nat.mod_lt _ (by decide)⟩
/-- A segment number out of a field. -/
def segAt (n lo : Nat) : SegNo := ⟨n / 2 ^ lo % 16, Nat.mod_lt _ (by decide)⟩
/-- An accumulator number out of a field. -/
def accAt (n lo : Nat) : AccNo := ⟨n / 2 ^ lo % 4, Nat.mod_lt _ (by decide)⟩
/-- A bit field of a word's number. -/
def bitsAt (n lo : Nat) (w : Nat) : BitVec w := BitVec.ofNat w (n / 2 ^ lo)
/-- A one-bit field. -/
def flagAt (n lo : Nat) : Bool := n / 2 ^ lo % 2 = 1

/-- The instruction of core `c` that a word spells; none for an unassigned encoding (R118). The instant and
the waiting time that some commands report are 0. -/
def decode (c : CoreId) (w : Word) : Option Instr :=
  let n := w.toNat
  let op := n / 2 ^ 26
  let fn := n % 2 ^ 11
  let sub := n / 2 ^ 12 % 16
  let imm12 := n % 2 ^ 12
  let f21 := n / 2 ^ 21 % 32
  let f16 := n / 2 ^ 16 % 32
  let f11 := n / 2 ^ 11 % 32
  let rd := regAt n 21
  let ra := regAt n 16
  let rb := regAt n 11
  if op = 0x00 then (if n = 0 then some (.nop c) else if sub = 1 ∧ f21 = 0 then some (.jr c ra (bitsAt n 0 12)) else none) else
  if op = 0x01 then
    if fn = 0 then some (.band c rd ra rb) else
    if fn = 1 then some (.bor c rd ra rb) else
    if fn = 2 then some (.bxor c rd ra rb) else
    if fn = 3 then some (.bandn c rd ra rb) else
    if fn = 4 then some (.born c rd ra rb) else
    if fn = 5 then some (.bnand c rd ra rb) else
    if fn = 6 then some (.bnor c rd ra rb) else
    if fn = 7 then some (.bxnor c rd ra rb) else
    none
  else
  if op = 0x02 then
    if fn = 0 then some (.ceq c rd ra rb) else
    if fn = 1 then some (.cne c rd ra rb) else
    if fn = 2 then some (.clt c rd ra rb) else
    if fn = 3 then some (.cge c rd ra rb) else
    if fn = 4 then some (.cltu c rd ra rb) else
    if fn = 5 then some (.cgeu c rd ra rb) else
    if fn = 6 ∧ f11 = 0 then some (.cnz c rd ra) else
    if fn = 7 then some (.ctst c rd ra rb) else
    none
  else
  if op = 0x03 then
    if fn = 0 then some (.tbi c rd ra rb) else
    if fn = 1 then some (.tbr c rd ra rb) else
    if fn = 2 ∧ f11 = 0 then some (.btog c rd ra) else
    if fn = 3 then some (.bins c rd ra rb) else
    none
  else
  if op = 0x04 then
    if fn = 0 then some (.add c rd ra rb) else
    if fn = 1 then some (.sub c rd ra rb) else
    if fn = 2 then some (.addv c rd ra rb) else
    if fn = 3 then some (.subv c rd ra rb) else
    if fn = 4 then some (.adds c rd ra rb) else
    if fn = 5 then some (.subs c rd ra rb) else
    if fn = 6 then some (.addsu c rd ra rb) else
    if fn = 7 then some (.subsu c rd ra rb) else
    if fn = 8 ∧ f11 = 0 then some (.abss c rd ra) else
    none
  else
  if op = 0x05 then
    if fn = 0 then some (.and c rd ra rb) else
    if fn = 1 then some (.or c rd ra rb) else
    if fn = 2 then some (.xor c rd ra rb) else
    if fn = 3 then some (.andn c rd ra rb) else
    if fn = 4 then some (.orn c rd ra rb) else
    if fn = 5 then some (.xnor c rd ra rb) else
    if fn = 6 then some (.nor c rd ra rb) else
    none
  else
  if op = 0x06 then
    if fn = 0 then some (.min c rd ra rb) else
    if fn = 1 then some (.max c rd ra rb) else
    if fn = 2 then some (.minu c rd ra rb) else
    if fn = 3 then some (.maxu c rd ra rb) else
    if fn / 32 = 1 then some (.sel c rd ra rb (regAt n 0)) else
    none
  else
  if op = 0x07 then
    if fn = 0 then some (.slt c rd ra rb) else
    if fn = 1 then some (.sltu c rd ra rb) else
    none
  else
  if op = 0x08 then
    some (.addi c rd ra (bitsAt n 0 16))
  else
  if op = 0x09 then
    some (.addsi c rd ra (bitsAt n 0 16))
  else
  if op = 0x0A then
    some (.andi c rd ra (bitsAt n 0 16))
  else
  if op = 0x0B then
    some (.ori c rd ra (bitsAt n 0 16))
  else
  if op = 0x0C then
    some (.xori c rd ra (bitsAt n 0 16))
  else
  if op = 0x0D then
    some (.orhi c rd ra (bitsAt n 0 16))
  else
  if op = 0x0E then
    some (.slti c rd ra (bitsAt n 0 16))
  else
  if op = 0x0F then
    some (.sltiu c rd ra (bitsAt n 0 16))
  else
  if op = 0x10 then
    if fn = 0 then some (.sll c rd ra rb) else
    if fn = 1 then some (.srl c rd ra rb) else
    if fn = 2 then some (.sra c rd ra rb) else
    if fn = 3 then some (.ror c rd ra rb) else
    none
  else
  if op = 0x11 then
    if n / 2 ^ 7 % 512 = 0 then some (.shi c rd ra (bitsAt n 5 2) (regAt n 0)) else
    none
  else
  if op = 0x12 then
    if n / 2 ^ 11 % 32 = 0 ∧ n % 32 + n / 32 % 32 + 1 ≤ 32 then some (.ext c rd ra (flagAt n 10) (regAt n 5) (regAt n 0)) else
    none
  else
  if op = 0x13 then
    if n / 2 ^ 10 % 64 = 0 ∧ n % 32 + n / 32 % 32 + 1 ≤ 32 then some (.ins c rd ra (regAt n 5) (regAt n 0)) else
    none
  else
  if op = 0x14 then
    some (.ldb c rd ra (segAt n 12) (bitsAt n 0 12))
  else
  if op = 0x15 then
    some (.ldh c rd ra (segAt n 12) (bitsAt n 0 12))
  else
  if op = 0x16 then
    some (.ldw c rd ra (segAt n 12) (bitsAt n 0 12))
  else
  if op = 0x17 then
    some (.stb c rd ra (segAt n 12) (bitsAt n 0 12))
  else
  if op = 0x18 then
    some (.sth c rd ra (segAt n 12) (bitsAt n 0 12))
  else
  if op = 0x19 then
    some (.stw c rd ra (segAt n 12) (bitsAt n 0 12))
  else
  if op = 0x1A then
    if n / 2 ^ 10 % 4 ≠ 3 then some (.ldp c rd ra (segAt n 12) (bitsAt n 10 2) (bitsAt n 0 10)) else
    none
  else
  if op = 0x1B then
    if n / 2 ^ 10 % 4 ≠ 3 then some (.stp c rd ra (segAt n 12) (bitsAt n 10 2) (bitsAt n 0 10)) else
    none
  else
  if op = 0x1C then
    if fn = 0 then some (.mul c rd ra rb) else
    if fn = 1 then some (.mulhs c rd ra rb) else
    if fn = 2 then some (.mulhu c rd ra rb) else
    if fn = 3 then some (.mulq c rd ra rb) else
    none
  else
  if op = 0x1D then
    if fn = 0 ∧ f21 % 2 = 0 then some (.divs c rd ra rb) else
    if fn = 1 ∧ f21 % 2 = 0 then some (.divu c rd ra rb) else
    none
  else
  if op = 0x20 then
    some (.mac c (accAt n 24) (segAt n 20) (segAt n 16) (regAt n 11) (regAt n 6) (bitsAt n 4 2) (bitsAt n 2 2) (flagAt n 1) (flagAt n 0))
  else
  if op = 0x21 then
    some (.macxb c (accAt n 24) (segAt n 20) (segAt n 16) (regAt n 11) (regAt n 6) (bitsAt n 4 2) (bitsAt n 2 2) (flagAt n 1) (flagAt n 0))
  else
  if op = 0x22 then
    some (.macyb c (accAt n 24) (segAt n 20) (segAt n 16) (regAt n 11) (regAt n 6) (bitsAt n 4 2) (bitsAt n 2 2) (flagAt n 1) (flagAt n 0))
  else
  if op = 0x23 then
    some (.macb c (accAt n 24) (segAt n 20) (segAt n 16) (regAt n 11) (regAt n 6) (bitsAt n 4 2) (bitsAt n 2 2) (flagAt n 1) (flagAt n 0))
  else
  if op = 0x24 then
    if fn / 4 = 0 ∧ f21 = 0 ∧ f16 = 0 ∧ f11 = 0 then some (.aclr c (accAt n 0)) else
    if fn / 4 = 1 ∧ f21 = 0 ∧ f11 = 0 then some (.amovw c (accAt n 0) ra) else
    if fn / 4 = 2 ∧ f21 = 0 then some (.amovd c (accAt n 0) ra rb) else
    if fn / 4 = 3 ∧ f21 = 0 ∧ f16 = 0 then some (.asra c (accAt n 0) rb) else
    none
  else
  if op = 0x25 then
    if fn / 4 = 0 ∧ f16 = 0 ∧ f11 = 0 then some (.ardl c rd (accAt n 0)) else
    if fn / 4 = 1 ∧ f16 = 0 ∧ f11 = 0 then some (.ardh c rd (accAt n 0)) else
    if fn / 4 = 2 ∧ f16 = 0 ∧ f11 = 0 then some (.ardx c rd (accAt n 0)) else
    none
  else
  if op = 0x27 then
    if fn / 4 = 0 ∧ f16 = 0 ∧ f11 = 0 then some (.asati c rd (accAt n 0)) else
    if fn / 4 = 1 ∧ f16 = 0 ∧ f11 = 0 then some (.asatq c rd (accAt n 0)) else
    none
  else
  if op = 0x28 then
    some (.br c rd (flagAt n 20) (bitsAt n 0 20))
  else
  if op = 0x2C then
    if n / 2 ^ 20 % 2 = 0 then some (.call c rd (bitsAt n 0 20)) else
    none
  else
  if op = 0x2D then
    if n % 2 ^ 26 = 0 then some (.ret c 0) else
    none
  else
  if op = 0x2E then
    if sub = 0 ∧ 8 ≤ f21 ∧ f21 ≤ 15 then some (.sld c rd ra (bitsAt n 0 12)) else
    if sub = 1 ∧ 8 ≤ f21 ∧ f21 ≤ 15 ∧ f16 % 2 = 0 ∧ imm12 = 0 then some (.smk c rd ra) else
    none
  else
  if op = 0x2F then
    if sub = 0 ∧ f16 = 0 then some (.swl c rd (bitsAt n 0 12) 0) else
    if sub = 1 ∧ f21 = 0 then some (.sws c ra (bitsAt n 0 12)) else
    none
  else
  if op = 0x30 then
    if sub = 0 ∧ f16 = 0 ∧ imm12 = 0 then some (.csrr c rd) else
    if sub = 1 ∧ f21 = 0 ∧ imm12 = 0 then some (.csrw c ra) else
    if sub = 2 ∧ f21 = 0 ∧ imm12 = 0 then some (.csrs c ra) else
    if sub = 3 ∧ f21 = 0 ∧ imm12 = 0 then some (.csrc c ra) else
    none
  else
  if op = 0x31 then
    if sub = 0 ∧ f16 = 0 ∧ imm12 = 0 then some (.evf c rd) else
    if sub = 1 ∧ f16 = 0 ∧ imm12 < 8 then some (.evtb c rd ⟨n % 8, Nat.mod_lt _ (by decide)⟩) else
    if sub = 2 ∧ f16 = 0 ∧ imm12 < 8 then some (.evpb c rd ⟨n % 8, Nat.mod_lt _ (by decide)⟩) else
    none
  else
  if op = 0x32 then
    if sub = 0 ∧ f16 = 0 ∧ imm12 = 0 then some (.rcyc c rd) else
    if sub = 1 ∧ f16 = 0 ∧ imm12 = 0 then some (.rlsd c rd) else
    if sub = 2 ∧ f16 = 0 ∧ imm12 = 0 then some (.rctx c rd) else
    none
  else
  if op = 0x38 then
    if fn = 0 then some (.fadd c rd ra rb) else
    if fn = 1 then some (.fsub c rd ra rb) else
    none
  else
  if op = 0x39 then
    if fn = 0 then some (.fmul c rd ra rb) else
    none
  else
  if op = 0x3A then
    if fn = 0 then some (.fdiv c rd ra rb) else
    none
  else
  if op = 0x3B then
    if fn = 0 ∧ f11 = 0 then some (.fsqrt c rd ra) else
    none
  else
  if op = 0x3C then
    if fn = 0 then some (.feq c rd ra rb) else
    if fn = 1 then some (.flt c rd ra rb) else
    if fn = 2 then some (.fle c rd ra rb) else
    if fn = 3 then some (.fun c rd ra rb) else
    none
  else
  if op = 0x3D then
    if fn = 0 ∧ f11 = 0 then some (.ftoi c rd ra) else
    if fn = 1 ∧ f11 = 0 then some (.ftoir c rd ra) else
    if fn = 2 ∧ f11 = 0 then some (.itof c rd ra) else
    if fn = 3 ∧ f11 = 0 then some (.utof c rd ra) else
    none
  else
  if op = 0x3E then
    if fn = 0 ∧ f21 % 2 = 0 ∧ f16 % 2 = 0 then some (.div64u c rd ra rb) else
    if fn = 1 ∧ f21 % 2 = 0 ∧ f16 % 2 = 0 then some (.div64s c rd ra rb) else
    none
  else
  none

end Sys2Proof
end

