-- ==== Sys2Proof/Config.lean ====
section
/-! DEFINITION. What the manual leaves open: free values, and the cryptographic primitives
that the model keeps uninterpreted. Nothing in Lean can evaluate them, so every statement
holds for every value of them. -/

namespace Sys2Proof

/-- A fresh value of 64 bits; applied to the counter `free` of the state.
UNVERIFIED value: nothing constrains it. Safe. Assumption 3. -/
opaque Config.fresh64 : Nat → BitVec 64
/-- Random bytes of the trust unit (session nonce, module random, ephemeral key), R529. Assumption 3. -/
opaque Config.freshBytes : Nat → Nat → List Byte
/-- Ed448 verification of RFC 8032: key, message, signature (R554). Assumption 4. -/
opaque Config.ed448Verify : List Byte → List Byte → List Byte → Bool
/-- Ed448 signature by the device identity key over a message (R529, R573). Assumption 4. -/
opaque Config.ed448Sign : List Byte → List Byte
/-- X448 public key of a private value, and the shared secret with a peer key (R529, R530). Assumption 4. -/
opaque Config.x448Public : List Byte → List Byte
/-- X448 shared secret. Assumption 4. -/
opaque Config.x448Shared : List Byte → List Byte → List Byte
/-- Module identity written at manufacture: serial, MAC, grade, device key, certificate and
ROM measurement ("per module" resets of Tables 20-6 and 21-12). Assumption 6. -/
opaque Config.moduleSerial : BitVec 64
/-- MAC address. Assumption 6. -/
opaque Config.moduleMac : BitVec 48
/-- Grade: `false` grade A, `true` grade E. Assumption 6. -/
opaque Config.moduleGradeE : Bool
/-- Device identity public key (57 bytes). Assumption 6. -/
opaque Config.deviceKey : List Byte
/-- Borael's certificate of R572 (114 bytes). Assumption 6. -/
opaque Config.deviceCert : List Byte
/-- SHAKE256 of the boot ROM, first 32 bytes. Assumption 6. -/
opaque Config.romMeas : List Byte
/-- Borael's firmware public key (57 bytes), R557. Assumption 6. -/
opaque Config.firmwareKey : List Byte
/-- One-time-programmable storage as it stands when the module is first powered: the key of an owner slot, whether it is enrolled,
whether it is revoked (R557). Assumption 6. -/
opaque Config.otpOwners : Nat → List Byte × Bool × Bool
/-- The anti-rollback fuses blown by then (R560). Assumption 6. -/
opaque Config.otpRollback : Nat
/-- The address runs of an INIT section: core field, core-visible address, bytes. The manual gives the section's content (R146) and
no byte format of it. Assumption 16. -/
opaque Config.initRuns : List Byte → List (Nat × Nat × List Byte)

end Sys2Proof
end

