-- ==== Sys2Proof/Machine/Bits.lean ====
section
/-! DEFINITION. Bit fields, byte order, sign and saturation helpers, and the two CRCs. -/

namespace Sys2Proof.Machine

/-- Field `NAME[hi:lo]` of a word, right-aligned (R10). -/
def field (w : Word) (hi lo : Nat) : Word := (w >>> lo) &&& BitVec.ofNat 32 (2 ^ (hi + 1 - lo) - 1)

/-- A word with field `NAME[hi:lo]` replaced by the low bits of `v` (R10). -/
def setField (w : Word) (hi lo : Nat) (v : Nat) : Word :=
  let m : Word := BitVec.ofNat 32 (2 ^ (hi + 1 - lo) - 1)
  (w &&& ~~~(m <<< lo)) ||| ((BitVec.ofNat 32 v &&& m) <<< lo)

/-- Bit `k` of a word set or cleared. -/
def setBit (w : Word) (k : Nat) (v : Bool) : Word :=
  if v then w ||| ((1 : Word) <<< k) else w &&& ~~~((1 : Word) <<< k)

/-- A Bool as a bit vector of any width. -/
def ofBool (w : Nat) (b : Bool) : BitVec w := if b then 1 else 0

/-- `n` bytes of `v`, least significant first (R11). -/
def leBytes : Nat → Nat → List Byte
  | 0, _ => []
  | n + 1, v => BitVec.ofNat 8 v :: leBytes n (v / 256)

/-- The number that bytes spell, least significant first (R11). -/
def leNat : List Byte → Nat
  | [] => 0
  | b :: r => b.toNat + 256 * leNat r

/-- A list of bytes cut or filled with zeros to exactly `n`. -/
def padTo : Nat → List Byte → List Byte
  | 0, _ => []
  | n + 1, [] => 0 :: padTo n []
  | n + 1, b :: r => b :: padTo n r

/-- Bytes `off` to `off + n - 1` of a list, zero beyond its end. -/
def slice (l : List Byte) (off n : Nat) : List Byte := padTo n (l.drop off)

/-- Low and high words of a double word. -/
def lo32 (v : Nat) : Word := BitVec.ofNat 32 v
/-- High word. -/
def hi32 (v : Nat) : Word := BitVec.ofNat 32 (v / 2 ^ 32)

/-- A counter that saturates at 16#FFFF_FFFF (R17). -/
def satInc (w : Word) (n : Nat := 1) : Word := BitVec.ofNat 32 (min (w.toNat + n) 0xFFFFFFFF)

/-- A signed value clamped to a range. -/
def clampI (lo hi v : Int) : Int := if v < lo then lo else if v > hi then hi else v

/-- Bits of a mask that are set, lowest first, among `0 .. n-1`. -/
def bitList (n : Nat) (m : Nat) : List Nat := (List.range n).filter fun k => m.testBit k

/-- The mask that has the listed bits set. -/
def maskOf (l : List Nat) : Nat := l.foldl (fun m k => m ||| 2 ^ k) 0

/-- One bit of a CRC register of `n` bits, most significant bit first. -/
def crcStepMsb (n poly : Nat) (r : Nat) (b : Bool) : Nat :=
  let top := r.testBit (n - 1)
  let r2 := (r * 2) % 2 ^ n
  if Bool.xor top b then r2 ^^^ poly else r2

/-- CRC-16, polynomial 16#1021, initial value 16#FFFF, no reflection. -/
def crc16 (l : List Byte) : Nat :=
  l.foldl (fun r by_ => (List.range 8).foldl (fun r k => crcStepMsb 16 0x1021 r (by_.getLsbD (7 - k))) r) 0xFFFF

/-- One bit of the reflected CRC-32 register. -/
def crc32Step (r : Nat) : Nat := if r % 2 = 1 then (r / 2) ^^^ 0xEDB88320 else r / 2

/-- CRC-32 of IEEE 802.3: reflected, initial value and final inversion 16#FFFF_FFFF. -/
def crc32 (l : List Byte) : Nat :=
  (l.foldl (fun r by_ => (List.range 8).foldl (fun r _ => crc32Step r) (r ^^^ by_.toNat)) 0xFFFFFFFF) ^^^ 0xFFFFFFFF

/-- The last element that satisfies a test replaced; helper for keyed lists. -/
def updWhere {α : Type} (p : α → Bool) (f : α → α) (l : List α) : List α := l.map fun a => if p a then f a else a

end Sys2Proof.Machine
end

