-- ==== Sys2Proof/Machine/Params.lean ====
section
/-! DEFINITION. The parameter space (R13 to R17, R21, Table 0-4): one row per word of every block's tables, with its
access codes (R15) and its reset value. -/

namespace Sys2Proof.Machine

/-- A word, or a run of words, of a block: block, first word, how many, spacing and number of the copies for the
block's instances, access codes (bit 0 R, bit 1 W, bit 2 RC, bit 3 P, bit 4 E), reset value, and whether
the word keeps its value through a restart (Assumption 11). -/
structure WSpec where
  blk : Nat
  lo : Nat
  n : Nat
  stride : Nat
  ninst : Nat
  acc : Nat
  reset : Nat
  keep : Bool
  deriving DecidableEq, Repr

/-- Words of the SYS block. -/
def wordsSYS : List WSpec :=
  [⟨0x0, 0x20, 1, 0x0, 1, 1, 0x2, false⟩,
   ⟨0x0, 0x21, 1, 0x0, 1, 1, 0x0, false⟩,
   ⟨0x0, 0x22, 1, 0x0, 1, 1, 0x1, false⟩,
   ⟨0x0, 0x23, 1, 0x0, 1, 1, 0x1, false⟩,
   ⟨0x0, 0x24, 1, 0x0, 1, 1, 0x0, false⟩,
   ⟨0x0, 0x25, 1, 0x0, 1, 1, 0x0, true⟩,
   ⟨0x0, 0x0, 1, 0x0, 1, 1, 0x7480, false⟩,
   ⟨0x0, 0x1, 1, 0x0, 1, 1, 0x1, false⟩,
   ⟨0x0, 0x2, 1, 0x0, 1, 1, 0x0, false⟩,
   ⟨0x0, 0x3, 1, 0x0, 1, 1, 0x0, false⟩,
   ⟨0x0, 0x4, 1, 0x0, 1, 1, 0x0, false⟩,
   ⟨0x0, 0x5, 1, 0x0, 1, 1, 0x0, false⟩,
   ⟨0x0, 0x6, 1, 0x0, 1, 1, 0x0, false⟩,
   ⟨0x0, 0x7, 1, 0x0, 1, 1, 0x0, false⟩,
   ⟨0x0, 0x8, 1, 0x0, 1, 1, 0x0, false⟩,
   ⟨0x0, 0x9, 1, 0x0, 1, 1, 0x1842, false⟩,
   ⟨0x0, 0xe, 1, 0x0, 1, 5, 0x0, false⟩,
   ⟨0x0, 0xf, 1, 0x0, 1, 1, 0x0, true⟩,
   ⟨0x0, 0x10, 4, 0x0, 1, 1, 0x0, false⟩]

/-- Words of the TICK block. -/
def wordsTICK : List WSpec :=
  [⟨0x100, 0x0, 1, 0x0, 1, 1, 0xfa, false⟩,
   ⟨0x100, 0x1, 1, 0x0, 1, 1, 0x1d9bb, false⟩,
   ⟨0x100, 0x2, 1, 0x0, 1, 1, 0x0, false⟩,
   ⟨0x100, 0x3, 1, 0x0, 1, 1, 0x0, false⟩,
   ⟨0x100, 0x4, 1, 0x0, 1, 1, 0x0, false⟩,
   ⟨0x100, 0x5, 1, 0x0, 1, 1, 0x0, false⟩,
   ⟨0x100, 0x6, 1, 0x0, 1, 5, 0x0, false⟩,
   ⟨0x100, 0x7, 1, 0x0, 1, 1, 0x0, true⟩,
   ⟨0x100, 0x8, 1, 0x0, 1, 1, 0x0, true⟩,
   ⟨0x100, 0x9, 1, 0x0, 1, 1, 0x0, true⟩,
   ⟨0x100, 0xe, 1, 0x0, 1, 5, 0x0, false⟩,
   ⟨0x100, 0xf, 1, 0x0, 1, 1, 0x0, true⟩,
   ⟨0x100, 0x100, 1, 0x20, 8, 1, 0x0, false⟩,
   ⟨0x100, 0x101, 1, 0x20, 8, 1, 0x0, false⟩,
   ⟨0x100, 0x102, 1, 0x20, 8, 1, 0x0, true⟩,
   ⟨0x100, 0x103, 1, 0x20, 8, 1, 0x0, false⟩,
   ⟨0x100, 0x104, 1, 0x20, 8, 1, 0x0, true⟩,
   ⟨0x100, 0x105, 1, 0x20, 8, 1, 0x0, false⟩,
   ⟨0x100, 0x106, 1, 0x20, 8, 1, 0x0, true⟩,
   ⟨0x100, 0x107, 1, 0x20, 8, 1, 0x0, true⟩,
   ⟨0x100, 0x108, 8, 0x20, 8, 1, 0x0, true⟩,
   ⟨0x100, 0x110, 8, 0x20, 8, 1, 0x0, true⟩]

/-- Words of the EXEC block. -/
def wordsEXEC : List WSpec :=
  [⟨0x200, 0x0, 4, 0x0, 1, 1, 0x0, false⟩,
   ⟨0x200, 0x4, 1, 0x0, 1, 1, 0x0, false⟩,
   ⟨0x200, 0x5, 1, 0x0, 1, 1, 0x0, false⟩,
   ⟨0x200, 0x6, 1, 0x0, 1, 1, 0x0, false⟩,
   ⟨0x200, 0x7, 1, 0x0, 1, 1, 0x0, false⟩,
   ⟨0x200, 0x8, 1, 0x0, 1, 1, 0x0, false⟩,
   ⟨0x200, 0x9, 1, 0x0, 1, 1, 0x0, true⟩,
   ⟨0x200, 0xa, 1, 0x0, 1, 1, 0x0, true⟩,
   ⟨0x200, 0xb, 1, 0x0, 1, 1, 0x0, true⟩,
   ⟨0x200, 0xc, 1, 0x0, 1, 1, 0x0, true⟩,
   ⟨0x200, 0xd, 1, 0x0, 1, 5, 0x0, false⟩,
   ⟨0x200, 0xe, 1, 0x0, 1, 5, 0x0, false⟩,
   ⟨0x200, 0xf, 1, 0x0, 1, 1, 0x0, true⟩]

/-- Words of the RET block. -/
def wordsRET : List WSpec :=
  [⟨0x300, 0x0, 1, 0x0, 1, 1, 0x0, false⟩,
   ⟨0x300, 0x1, 1, 0x0, 1, 1, 0x0, false⟩,
   ⟨0x300, 0x2, 1, 0x0, 1, 1, 0x0, false⟩,
   ⟨0x300, 0x3, 1, 0x0, 1, 1, 0x0, false⟩,
   ⟨0x300, 0x4, 1, 0x0, 1, 1, 0x0, true⟩,
   ⟨0x300, 0x5, 1, 0x0, 1, 1, 0x0, false⟩,
   ⟨0x300, 0x6, 1, 0x0, 1, 1, 0x0, true⟩,
   ⟨0x300, 0x7, 1, 0x0, 1, 1, 0x0, false⟩,
   ⟨0x300, 0x8, 1, 0x0, 1, 1, 0x0, false⟩,
   ⟨0x300, 0x9, 1, 0x0, 1, 1, 0x0, true⟩,
   ⟨0x300, 0xa, 1, 0x0, 1, 1, 0x0, true⟩,
   ⟨0x300, 0xb, 1, 0x0, 1, 1, 0x0, true⟩,
   ⟨0x300, 0xc, 1, 0x0, 1, 1, 0x0, true⟩,
   ⟨0x300, 0xd, 1, 0x0, 1, 5, 0x0, false⟩,
   ⟨0x300, 0xe, 1, 0x0, 1, 5, 0x0, false⟩,
   ⟨0x300, 0xf, 1, 0x0, 1, 1, 0x0, true⟩]

/-- Words of the LINK block. -/
def wordsLINK : List WSpec :=
  [⟨0x400, 0x0, 1, 0x0, 1, 1, 0x0, false⟩,
   ⟨0x400, 0x1, 1, 0x0, 1, 5, 0x0, false⟩,
   ⟨0x400, 0xe, 1, 0x0, 1, 5, 0x0, false⟩,
   ⟨0x400, 0xf, 1, 0x0, 1, 1, 0x0, true⟩,
   ⟨0x400, 0x100, 1, 0x80, 16, 3, 0x0, false⟩,
   ⟨0x400, 0x101, 1, 0x80, 16, 19, 0x0, false⟩,
   ⟨0x400, 0x102, 1, 0x80, 16, 19, 0x0, false⟩,
   ⟨0x400, 0x103, 1, 0x80, 16, 19, 0x0, false⟩,
   ⟨0x400, 0x104, 1, 0x80, 16, 19, 0x8, false⟩,
   ⟨0x400, 0x105, 1, 0x80, 16, 19, 0x3, false⟩,
   ⟨0x400, 0x106, 1, 0x80, 16, 19, 0x3, false⟩,
   ⟨0x400, 0x108, 1, 0x80, 16, 1, 0x0, false⟩,
   ⟨0x400, 0x109, 1, 0x80, 16, 5, 0x0, false⟩,
   ⟨0x400, 0x10a, 1, 0x80, 16, 1, 0x0, false⟩,
   ⟨0x400, 0x10b, 1, 0x80, 16, 1, 0x0, false⟩,
   ⟨0x400, 0x10c, 1, 0x80, 16, 1, 0x0, true⟩,
   ⟨0x400, 0x10d, 1, 0x80, 16, 1, 0x0, true⟩,
   ⟨0x400, 0x10e, 1, 0x80, 16, 1, 0x0, true⟩,
   ⟨0x400, 0x10f, 1, 0x80, 16, 1, 0x0, true⟩,
   ⟨0x400, 0x110, 1, 0x80, 16, 1, 0x0, true⟩,
   ⟨0x400, 0x111, 1, 0x80, 16, 1, 0x0, true⟩,
   ⟨0x400, 0x112, 1, 0x80, 16, 1, 0xff, false⟩,
   ⟨0x400, 0x113, 1, 0x80, 16, 1, 0x0, true⟩,
   ⟨0x400, 0x114, 1, 0x80, 16, 1, 0x0, true⟩,
   ⟨0x400, 0x115, 1, 0x80, 16, 1, 0x0, true⟩,
   ⟨0x400, 0x120, 32, 0x80, 16, 19, 0x0, false⟩,
   ⟨0x400, 0x140, 32, 0x80, 16, 1, 0x0, false⟩,
   ⟨0x400, 0x160, 32, 0x80, 16, 1, 0x0, false⟩]

/-- Words of the ENC block. -/
def wordsENC : List WSpec :=
  [⟨0x500, 0x0, 1, 0x0, 1, 19, 0xff, false⟩,
   ⟨0x500, 0x1, 1, 0x0, 1, 5, 0x0, false⟩,
   ⟨0x500, 0x2, 1, 0x0, 1, 1, 0x0, false⟩,
   ⟨0x500, 0x3, 1, 0x0, 1, 1, 0x0, false⟩,
   ⟨0x500, 0x4, 1, 0x0, 1, 1, 0x0, false⟩,
   ⟨0x500, 0x5, 1, 0x0, 1, 1, 0x0, true⟩,
   ⟨0x500, 0xe, 1, 0x0, 1, 5, 0x0, false⟩,
   ⟨0x500, 0xf, 1, 0x0, 1, 1, 0x0, true⟩,
   ⟨0x500, 0x100, 1, 0x40, 4, 3, 0x0, false⟩,
   ⟨0x500, 0x101, 1, 0x40, 4, 19, 0x0, false⟩,
   ⟨0x500, 0x102, 1, 0x40, 4, 3, 0x0, false⟩,
   ⟨0x500, 0x103, 1, 0x40, 4, 19, 0x1, false⟩,
   ⟨0x500, 0x104, 1, 0x40, 4, 19, 0x0, false⟩,
   ⟨0x500, 0x105, 1, 0x40, 4, 19, 0x0, false⟩,
   ⟨0x500, 0x106, 1, 0x40, 4, 19, 0x2, false⟩,
   ⟨0x500, 0x107, 1, 0x40, 4, 19, 0x0, false⟩,
   ⟨0x500, 0x108, 1, 0x40, 4, 19, 0x0, false⟩,
   ⟨0x500, 0x109, 1, 0x40, 4, 19, 0x64, false⟩,
   ⟨0x500, 0x10a, 1, 0x40, 4, 19, 0x19, false⟩,
   ⟨0x500, 0x10b, 1, 0x40, 4, 19, 0xd, false⟩,
   ⟨0x500, 0x10c, 1, 0x40, 4, 19, 0x0, false⟩,
   ⟨0x500, 0x10d, 1, 0x40, 4, 19, 0x0, false⟩,
   ⟨0x500, 0x10e, 1, 0x40, 4, 19, 0x14, false⟩,
   ⟨0x500, 0x10f, 1, 0x40, 4, 19, 0x7d0, false⟩,
   ⟨0x500, 0x110, 1, 0x40, 4, 19, 0xc350, false⟩,
   ⟨0x500, 0x111, 1, 0x40, 4, 19, 0x1, false⟩,
   ⟨0x500, 0x112, 1, 0x40, 4, 1, 0x0, false⟩,
   ⟨0x500, 0x113, 1, 0x40, 4, 5, 0x0, false⟩,
   ⟨0x500, 0x114, 1, 0x40, 4, 1, 0x0, true⟩,
   ⟨0x500, 0x115, 1, 0x40, 4, 1, 0x0, true⟩,
   ⟨0x500, 0x116, 1, 0x40, 4, 1, 0x0, true⟩,
   ⟨0x500, 0x117, 1, 0x40, 4, 1, 0x0, true⟩,
   ⟨0x500, 0x118, 1, 0x40, 4, 1, 0x0, true⟩]

/-- Words of the LOOP block. -/
def wordsLOOP : List WSpec :=
  [⟨0x600, 0x0, 1, 0x0, 1, 1, 0x0, false⟩,
   ⟨0x600, 0x1, 3, 0x0, 1, 1, 0x0, false⟩,
   ⟨0x600, 0x4, 3, 0x0, 1, 1, 0x0, false⟩,
   ⟨0x600, 0x7, 1, 0x0, 1, 1, 0x0, false⟩,
   ⟨0x600, 0x8, 1, 0x0, 1, 1, 0x0, false⟩,
   ⟨0x600, 0xe, 1, 0x0, 1, 5, 0x0, false⟩,
   ⟨0x600, 0xf, 1, 0x0, 1, 1, 0x0, true⟩,
   ⟨0x600, 0x20, 32, 0x0, 1, 1, 0x0, false⟩,
   ⟨0x600, 0x100, 1, 0x40, 96, 11, 0x0, false⟩,
   ⟨0x600, 0x101, 1, 0x40, 96, 1, 0x0, false⟩,
   ⟨0x600, 0x102, 1, 0x40, 96, 27, 0x1, false⟩,
   ⟨0x600, 0x103, 1, 0x40, 96, 27, 0x0, false⟩,
   ⟨0x600, 0x104, 1, 0x40, 96, 27, 0x0, false⟩,
   ⟨0x600, 0x105, 1, 0x40, 96, 27, 0x0, false⟩,
   ⟨0x600, 0x106, 1, 0x40, 96, 27, 0x80000000, false⟩,
   ⟨0x600, 0x107, 1, 0x40, 96, 27, 0x3f800000, false⟩,
   ⟨0x600, 0x108, 1, 0x40, 96, 27, 0x0, false⟩,
   ⟨0x600, 0x109, 1, 0x40, 96, 27, 0x0, false⟩,
   ⟨0x600, 0x10a, 1, 0x40, 96, 27, 0x0, false⟩,
   ⟨0x600, 0x10b, 1, 0x40, 96, 27, 0x0, false⟩,
   ⟨0x600, 0x10c, 1, 0x40, 96, 27, 0x0, false⟩,
   ⟨0x600, 0x10d, 1, 0x40, 96, 27, 0x3f800000, false⟩,
   ⟨0x600, 0x10e, 1, 0x40, 96, 27, 0x0, false⟩,
   ⟨0x600, 0x10f, 1, 0x40, 96, 27, 0x0, false⟩,
   ⟨0x600, 0x110, 1, 0x40, 96, 27, 0xbf800000, false⟩,
   ⟨0x600, 0x111, 1, 0x40, 96, 27, 0x3f800000, false⟩,
   ⟨0x600, 0x112, 1, 0x40, 96, 27, 0x0, false⟩,
   ⟨0x600, 0x113, 1, 0x40, 96, 27, 0x3f800000, false⟩,
   ⟨0x600, 0x114, 1, 0x40, 96, 27, 0x3f800000, false⟩,
   ⟨0x600, 0x115, 1, 0x40, 96, 27, 0x3f800000, false⟩,
   ⟨0x600, 0x116, 1, 0x40, 96, 27, 0x0, false⟩,
   ⟨0x600, 0x117, 1, 0x40, 96, 27, 0x3, false⟩,
   ⟨0x600, 0x118, 1, 0x40, 96, 27, 0x2, false⟩,
   ⟨0x600, 0x119, 1, 0x40, 96, 27, 0x0, false⟩,
   ⟨0x600, 0x11a, 1, 0x40, 96, 1, 0x3f800000, false⟩,
   ⟨0x600, 0x11b, 1, 0x40, 96, 5, 0x0, false⟩,
   ⟨0x600, 0x11c, 1, 0x40, 96, 1, 0x0, true⟩,
   ⟨0x600, 0x11d, 1, 0x40, 96, 1, 0x0, true⟩,
   ⟨0x600, 0x11e, 1, 0x40, 96, 1, 0x0, true⟩,
   ⟨0x600, 0x11f, 1, 0x40, 96, 1, 0x0, true⟩,
   ⟨0x600, 0x120, 1, 0x40, 96, 1, 0x0, false⟩,
   ⟨0x600, 0x121, 1, 0x40, 96, 1, 0x0, false⟩,
   ⟨0x600, 0x122, 1, 0x40, 96, 1, 0x0, false⟩]

/-- Words of the TUNE block. -/
def wordsTUNE : List WSpec :=
  [⟨0x700, 0x0, 1, 0x0, 1, 1, 0x0, false⟩,
   ⟨0x700, 0x1, 1, 0x0, 1, 1, 0xff, false⟩,
   ⟨0x700, 0x2, 1, 0x0, 1, 1, 0x0, true⟩,
   ⟨0x700, 0x3, 1, 0x0, 1, 11, 0x0, false⟩,
   ⟨0x700, 0x4, 1, 0x0, 1, 5, 0x0, false⟩,
   ⟨0x700, 0x5, 1, 0x0, 1, 1, 0x0, true⟩,
   ⟨0x700, 0x6, 1, 0x0, 1, 1, 0x0, true⟩,
   ⟨0x700, 0xe, 1, 0x0, 1, 5, 0x0, false⟩,
   ⟨0x700, 0xf, 1, 0x0, 1, 1, 0x0, true⟩,
   ⟨0x700, 0x40, 64, 0x0, 1, 1, 0x0, false⟩,
   ⟨0x700, 0x100, 1, 0x40, 96, 27, 0x0, false⟩,
   ⟨0x700, 0x101, 1, 0x40, 96, 27, 0x0, false⟩,
   ⟨0x700, 0x102, 1, 0x40, 96, 27, 0x0, false⟩,
   ⟨0x700, 0x103, 1, 0x40, 96, 27, 0x40, false⟩,
   ⟨0x700, 0x104, 1, 0x40, 96, 27, 0x1, false⟩,
   ⟨0x700, 0x105, 1, 0x40, 96, 27, 0x3f800000, false⟩,
   ⟨0x700, 0x106, 1, 0x40, 96, 27, 0x0, false⟩,
   ⟨0x700, 0x107, 1, 0x40, 96, 27, 0x3f666666, false⟩,
   ⟨0x700, 0x108, 1, 0x40, 96, 27, 0x40000000, false⟩,
   ⟨0x700, 0x109, 1, 0x40, 96, 27, 0x0, false⟩,
   ⟨0x700, 0x10a, 1, 0x40, 96, 27, 0x80000000, false⟩,
   ⟨0x700, 0x10b, 1, 0x40, 96, 27, 0x0, false⟩,
   ⟨0x700, 0x10c, 1, 0x40, 96, 27, 0x2, false⟩,
   ⟨0x700, 0x110, 8, 0x40, 96, 27, 0x0, false⟩,
   ⟨0x700, 0x118, 8, 0x40, 96, 27, 0x3f800000, false⟩,
   ⟨0x700, 0x120, 1, 0x40, 96, 27, 0x3e8, false⟩,
   ⟨0x700, 0x121, 1, 0x40, 96, 27, 0x40000000, false⟩,
   ⟨0x700, 0x122, 1, 0x40, 96, 27, 0x3, false⟩,
   ⟨0x700, 0x123, 1, 0x40, 96, 27, 0x0, false⟩,
   ⟨0x700, 0x124, 1, 0x40, 96, 27, 0x0, false⟩,
   ⟨0x700, 0x128, 1, 0x40, 96, 1, 0x0, false⟩,
   ⟨0x700, 0x129, 1, 0x40, 96, 1, 0x0, false⟩,
   ⟨0x700, 0x12a, 1, 0x40, 96, 1, 0x0, false⟩,
   ⟨0x700, 0x12b, 4, 0x40, 96, 1, 0x0, false⟩,
   ⟨0x700, 0x130, 4, 0x40, 96, 1, 0x0, false⟩,
   ⟨0x700, 0x134, 1, 0x40, 96, 1, 0x0, false⟩,
   ⟨0x700, 0x135, 1, 0x40, 96, 5, 0x0, false⟩,
   ⟨0x700, 0x136, 1, 0x40, 96, 1, 0x0, true⟩,
   ⟨0x700, 0x137, 1, 0x40, 96, 1, 0x0, true⟩,
   ⟨0x700, 0x138, 1, 0x40, 96, 1, 0x0, true⟩]

/-- Words of the PAIR block. -/
def wordsPAIR : List WSpec :=
  [⟨0x800, 0x0, 1, 0x0, 1, 11, 0x0, false⟩,
   ⟨0x800, 0x1, 1, 0x0, 1, 27, 0x0, false⟩,
   ⟨0x800, 0x2, 1, 0x0, 1, 27, 0x8, false⟩,
   ⟨0x800, 0x3, 1, 0x0, 1, 27, 0x0, false⟩,
   ⟨0x800, 0x4, 1, 0x0, 1, 1, 0x0, false⟩,
   ⟨0x800, 0x5, 1, 0x0, 1, 1, 0xff, false⟩,
   ⟨0x800, 0x6, 1, 0x0, 1, 1, 0x0, false⟩,
   ⟨0x800, 0x7, 1, 0x0, 1, 1, 0x0, false⟩,
   ⟨0x800, 0x8, 1, 0x0, 1, 5, 0x0, false⟩,
   ⟨0x800, 0x9, 1, 0x0, 1, 1, 0x0, false⟩,
   ⟨0x800, 0xa, 1, 0x0, 1, 1, 0x0, false⟩,
   ⟨0x800, 0xb, 1, 0x0, 1, 1, 0x0, false⟩,
   ⟨0x800, 0xc, 1, 0x0, 1, 1, 0x0, false⟩,
   ⟨0x800, 0xd, 1, 0x0, 1, 1, 0x0, false⟩,
   ⟨0x800, 0xe, 1, 0x0, 1, 5, 0x0, false⟩,
   ⟨0x800, 0xf, 1, 0x0, 1, 1, 0x0, true⟩,
   ⟨0x800, 0x10, 1, 0x0, 1, 1, 0x0, true⟩,
   ⟨0x800, 0x11, 1, 0x0, 1, 1, 0x0, true⟩,
   ⟨0x800, 0x12, 1, 0x0, 1, 1, 0x0, true⟩,
   ⟨0x800, 0x13, 1, 0x0, 1, 1, 0x0, true⟩,
   ⟨0x800, 0x14, 1, 0x0, 1, 1, 0x0, false⟩,
   ⟨0x800, 0x80, 1, 0x0, 1, 11, 0x0, false⟩,
   ⟨0x800, 0x81, 1, 0x0, 1, 1, 0xff, false⟩,
   ⟨0x800, 0x82, 1, 0x0, 1, 27, 0x0, false⟩,
   ⟨0x800, 0x83, 1, 0x0, 1, 27, 0x3, false⟩,
   ⟨0x800, 0x84, 1, 0x0, 1, 1, 0x0, false⟩,
   ⟨0x800, 0x85, 1, 0x0, 1, 1, 0x0, false⟩,
   ⟨0x800, 0x86, 1, 0x0, 1, 5, 0x0, false⟩,
   ⟨0x800, 0x87, 1, 0x0, 1, 1, 0x0, false⟩,
   ⟨0x800, 0x88, 1, 0x0, 1, 1, 0x0, true⟩,
   ⟨0x800, 0x89, 1, 0x0, 1, 1, 0x0, false⟩,
   ⟨0x800, 0x8a, 1, 0x0, 1, 1, 0x0, false⟩,
   ⟨0x800, 0x8b, 1, 0x0, 1, 1, 0x0, false⟩,
   ⟨0x800, 0x8c, 1, 0x0, 1, 1, 0x0, true⟩,
   ⟨0x800, 0x8d, 1, 0x0, 1, 1, 0x0, true⟩,
   ⟨0x800, 0x8e, 1, 0x0, 1, 27, 0x0, false⟩]

/-- Words of the BUS block. -/
def wordsBUS : List WSpec :=
  [⟨0x900, 0x0, 1, 0x0, 1, 1, 0x0, false⟩,
   ⟨0x900, 0xe, 1, 0x0, 1, 5, 0x0, false⟩,
   ⟨0x900, 0xf, 1, 0x0, 1, 1, 0x0, true⟩,
   ⟨0x900, 0x400, 1, 0x400, 4, 11, 0x0, false⟩,
   ⟨0x900, 0x401, 1, 0x400, 4, 27, 0x1, false⟩,
   ⟨0x900, 0x402, 1, 0x400, 4, 27, 0x1e3cf800, false⟩,
   ⟨0x900, 0x403, 1, 0x400, 4, 27, 0x110600, false⟩,
   ⟨0x900, 0x404, 1, 0x400, 4, 27, 0x8, false⟩,
   ⟨0x900, 0x405, 1, 0x400, 4, 27, 0x1, false⟩,
   ⟨0x900, 0x406, 1, 0x400, 4, 27, 0xa, false⟩,
   ⟨0x900, 0x407, 1, 0x400, 4, 27, 0x8, false⟩,
   ⟨0x900, 0x408, 1, 0x400, 4, 27, 0x0, false⟩,
   ⟨0x900, 0x409, 1, 0x400, 4, 11, 0x0, false⟩,
   ⟨0x900, 0x40a, 1, 0x400, 4, 1, 0x0, false⟩,
   ⟨0x900, 0x40b, 1, 0x400, 4, 5, 0x0, false⟩,
   ⟨0x900, 0x40c, 1, 0x400, 4, 1, 0x0, false⟩,
   ⟨0x900, 0x40d, 1, 0x400, 4, 1, 0x0, true⟩,
   ⟨0x900, 0x40e, 1, 0x400, 4, 1, 0x0, true⟩,
   ⟨0x900, 0x40f, 1, 0x400, 4, 1, 0x0, true⟩,
   ⟨0x900, 0x410, 1, 0x400, 4, 1, 0x0, true⟩,
   ⟨0x900, 0x411, 1, 0x400, 4, 1, 0x0, true⟩,
   ⟨0x900, 0x412, 1, 0x400, 4, 1, 0x0, true⟩,
   ⟨0x900, 0x413, 1, 0x400, 4, 1, 0x0, true⟩,
   ⟨0x900, 0x414, 1, 0x400, 4, 1, 0x0, true⟩,
   ⟨0x900, 0x415, 1, 0x400, 4, 1, 0x0, true⟩,
   ⟨0x900, 0x416, 1, 0x400, 4, 1, 0x0, true⟩,
   ⟨0x900, 0x417, 1, 0x400, 4, 1, 0x0, true⟩,
   ⟨0x900, 0x420, 32, 0x400, 4, 27, 0xffffffff, false⟩,
   ⟨0x900, 0x440, 16, 0x400, 4, 27, 0x0, false⟩,
   ⟨0x900, 0x450, 16, 0x400, 4, 27, 0x0, false⟩,
   ⟨0x900, 0x460, 16, 0x400, 4, 27, 0x3f800000, false⟩,
   ⟨0x900, 0x480, 64, 0x400, 4, 27, 0x0, false⟩,
   ⟨0x900, 0x4c0, 64, 0x400, 4, 27, 0x0, false⟩,
   ⟨0x900, 0x500, 64, 0x400, 4, 27, 0x0, false⟩,
   ⟨0x900, 0x600, 128, 0x400, 4, 27, 0x11111111, false⟩]

/-- Words of the DIO block. -/
def wordsDIO : List WSpec :=
  [⟨0xa00, 0x0, 1, 0x0, 1, 11, 0x0, false⟩,
   ⟨0xa00, 0x2, 1, 0x0, 1, 27, 0x0, false⟩,
   ⟨0xa00, 0x3, 1, 0x0, 1, 27, 0x0, false⟩,
   ⟨0xa00, 0x4, 1, 0x0, 1, 27, 0x0, false⟩,
   ⟨0xa00, 0x5, 1, 0x0, 1, 27, 0x0, false⟩,
   ⟨0xa00, 0x6, 1, 0x0, 1, 27, 0x0, false⟩,
   ⟨0xa00, 0x7, 1, 0x0, 1, 27, 0x0, false⟩,
   ⟨0xa00, 0x8, 1, 0x0, 1, 27, 0x64, false⟩,
   ⟨0xa00, 0x9, 1, 0x0, 1, 27, 0x3, false⟩,
   ⟨0xa00, 0xa, 1, 0x0, 1, 27, 0x0, false⟩,
   ⟨0xa00, 0xb, 1, 0x0, 1, 5, 0x0, false⟩,
   ⟨0xa00, 0xc, 1, 0x0, 1, 1, 0x0, false⟩,
   ⟨0xa00, 0xd, 1, 0x0, 1, 1, 0x0, false⟩,
   ⟨0xa00, 0xe, 1, 0x0, 1, 5, 0x0, false⟩,
   ⟨0xa00, 0xf, 1, 0x0, 1, 1, 0x0, true⟩,
   ⟨0xa00, 0x10, 1, 0x0, 1, 1, 0x0, false⟩,
   ⟨0xa00, 0x11, 1, 0x0, 1, 1, 0x0, false⟩,
   ⟨0xa00, 0x12, 1, 0x0, 1, 1, 0x0, false⟩,
   ⟨0xa00, 0x13, 1, 0x0, 1, 1, 0x0, false⟩,
   ⟨0xa00, 0x14, 1, 0x0, 1, 1, 0x0, true⟩,
   ⟨0xa00, 0x15, 1, 0x0, 1, 1, 0x0, true⟩,
   ⟨0xa00, 0x16, 1, 0x0, 1, 1, 0x0, true⟩,
   ⟨0xa00, 0x17, 1, 0x0, 1, 1, 0x0, true⟩,
   ⟨0xa00, 0x18, 1, 0x0, 1, 1, 0x0, true⟩,
   ⟨0xa00, 0x20, 32, 0x0, 1, 27, 0xbb8, false⟩]

/-- Words of the PANEL block. -/
def wordsPANEL : List WSpec :=
  [⟨0xb00, 0x0, 1, 0x0, 1, 11, 0x0, false⟩,
   ⟨0xb00, 0x1, 1, 0x0, 1, 27, 0x0, false⟩,
   ⟨0xb00, 0x2, 1, 0x0, 1, 27, 0x10, false⟩,
   ⟨0xb00, 0x3, 1, 0x0, 1, 27, 0x80, false⟩,
   ⟨0xb00, 0x4, 1, 0x0, 1, 27, 0x12c, false⟩,
   ⟨0xb00, 0x5, 1, 0x0, 1, 27, 0x64, false⟩,
   ⟨0xb00, 0x6, 1, 0x0, 1, 27, 0x3e8, false⟩,
   ⟨0xb00, 0x7, 1, 0x0, 1, 27, 0x3e8, false⟩,
   ⟨0xb00, 0x8, 1, 0x0, 1, 1, 0x0, false⟩,
   ⟨0xb00, 0x9, 1, 0x0, 1, 5, 0x0, false⟩,
   ⟨0xb00, 0xa, 1, 0x0, 1, 1, 0xff, false⟩,
   ⟨0xb00, 0xb, 1, 0x0, 1, 1, 0x0, false⟩,
   ⟨0xb00, 0xc, 1, 0x0, 1, 1, 0x0, true⟩,
   ⟨0xb00, 0xd, 1, 0x0, 1, 1, 0x0, true⟩,
   ⟨0xb00, 0xe, 1, 0x0, 1, 5, 0x0, false⟩,
   ⟨0xb00, 0xf, 1, 0x0, 1, 1, 0x0, true⟩,
   ⟨0xb00, 0x10, 1, 0x0, 1, 1, 0x0, true⟩,
   ⟨0xb00, 0x11, 1, 0x0, 1, 1, 0x0, true⟩,
   ⟨0xb00, 0x12, 4, 0x0, 1, 1, 0x0, false⟩,
   ⟨0xb00, 0x20, 16, 0x0, 1, 27, 0x0, false⟩,
   ⟨0xb00, 0x40, 1, 0x20, 3, 27, 0xfa, false⟩,
   ⟨0xb00, 0x41, 1, 0x20, 3, 27, 0x96, false⟩,
   ⟨0xb00, 0x42, 1, 0x20, 3, 27, 0x32, false⟩,
   ⟨0xb00, 0x43, 1, 0x20, 3, 27, 0x4e20, false⟩,
   ⟨0xb00, 0x44, 1, 0x20, 3, 27, 0x7d0, false⟩,
   ⟨0xb00, 0x45, 1, 0x20, 3, 27, 0x7530, false⟩,
   ⟨0xb00, 0x46, 1, 0x20, 3, 27, 0x0, false⟩,
   ⟨0xb00, 0x50, 16, 0x20, 3, 27, 0x0, false⟩]

/-- Words of the RTC block. -/
def wordsRTC : List WSpec :=
  [⟨0xc00, 0x0, 1, 0x0, 1, 1, 0x0, true⟩,
   ⟨0xc00, 0x1, 1, 0x0, 1, 1, 0x0, true⟩,
   ⟨0xc00, 0x2, 1, 0x0, 1, 1, 0x0, true⟩,
   ⟨0xc00, 0x3, 1, 0x0, 1, 1, 0x0, true⟩,
   ⟨0xc00, 0x4, 1, 0x0, 1, 1, 0x0, true⟩,
   ⟨0xc00, 0x5, 1, 0x0, 1, 1, 0x0, true⟩,
   ⟨0xc00, 0x6, 1, 0x0, 1, 1, 0x5, true⟩,
   ⟨0xc00, 0x7, 1, 0x0, 1, 1, 0x1, true⟩,
   ⟨0xc00, 0x8, 1, 0x0, 1, 1, 0x1, true⟩,
   ⟨0xc00, 0x9, 1, 0x0, 1, 1, 0x7d0, true⟩,
   ⟨0xc00, 0xa, 1, 0x0, 1, 5, 0x0, true⟩,
   ⟨0xc00, 0xb, 1, 0x0, 1, 1, 0x0, true⟩,
   ⟨0xc00, 0xc, 1, 0x0, 1, 1, 0x0, true⟩,
   ⟨0xc00, 0xe, 1, 0x0, 1, 5, 0x0, true⟩,
   ⟨0xc00, 0xf, 1, 0x0, 1, 1, 0x0, true⟩,
   ⟨0xc00, 0x10, 7, 0x0, 1, 11, 0x0, true⟩,
   ⟨0xc00, 0x17, 1, 0x0, 1, 11, 0x0, true⟩,
   ⟨0xc00, 0x18, 1, 0x0, 1, 1, 0x0, true⟩,
   ⟨0xc00, 0x19, 1, 0x0, 1, 1, 0x0, true⟩,
   ⟨0xc00, 0x20, 1, 0x0, 1, 11, 0x0, true⟩,
   ⟨0xc00, 0x21, 1, 0x0, 1, 27, 0x7000000, true⟩,
   ⟨0xc00, 0x22, 1, 0x0, 1, 27, 0xf0000000, true⟩,
   ⟨0xc00, 0x23, 1, 0x0, 1, 27, 0x7000000, true⟩,
   ⟨0xc00, 0x24, 1, 0x0, 1, 27, 0xf0000000, true⟩]

/-- Words of the WDG block. -/
def wordsWDG : List WSpec :=
  [⟨0xd00, 0x0, 1, 0x0, 1, 11, 0x0, true⟩,
   ⟨0xd00, 0x1, 1, 0x0, 1, 11, 0x0, true⟩,
   ⟨0xd00, 0x2, 1, 0x0, 1, 1, 0xc8, true⟩,
   ⟨0xd00, 0x3, 1, 0x0, 1, 1, 0x12c, true⟩,
   ⟨0xd00, 0x4, 1, 0x0, 1, 1, 0x0, false⟩,
   ⟨0xd00, 0x5, 1, 0x0, 1, 1, 0x0, false⟩,
   ⟨0xd00, 0x6, 1, 0x0, 1, 1, 0x0, false⟩,
   ⟨0xd00, 0x7, 1, 0x0, 1, 5, 0x0, true⟩,
   ⟨0xd00, 0x8, 1, 0x0, 1, 1, 0x0, true⟩,
   ⟨0xd00, 0x9, 1, 0x0, 1, 11, 0x3c, true⟩,
   ⟨0xd00, 0xa, 1, 0x0, 1, 11, 0x3, true⟩,
   ⟨0xd00, 0xb, 1, 0x0, 1, 11, 0x258, true⟩,
   ⟨0xd00, 0xc, 1, 0x0, 1, 11, 0x3, true⟩,
   ⟨0xd00, 0xe, 1, 0x0, 1, 5, 0x0, true⟩,
   ⟨0xd00, 0xf, 1, 0x0, 1, 1, 0x0, true⟩,
   ⟨0xd00, 0x10, 1, 0x0, 1, 1, 0x0, true⟩,
   ⟨0xd00, 0x11, 1, 0x0, 1, 1, 0x0, true⟩,
   ⟨0xd00, 0x12, 1, 0x0, 1, 1, 0x0, true⟩,
   ⟨0xd00, 0x13, 1, 0x0, 1, 1, 0x0, true⟩,
   ⟨0xd00, 0x14, 1, 0x0, 1, 1, 0x0, true⟩,
   ⟨0xd00, 0x15, 1, 0x0, 1, 1, 0x0, true⟩,
   ⟨0xd00, 0x16, 3, 0x0, 1, 1, 0x0, true⟩,
   ⟨0xd00, 0x19, 1, 0x0, 1, 1, 0x0, true⟩,
   ⟨0xd00, 0x1a, 1, 0x0, 1, 1, 0x0, true⟩,
   ⟨0xd00, 0x1b, 1, 0x0, 1, 1, 0x0, false⟩,
   ⟨0xd00, 0x1c, 1, 0x0, 1, 1, 0x0, true⟩,
   ⟨0xd00, 0x1d, 1, 0x0, 1, 11, 0x0, true⟩,
   ⟨0xd00, 0x40, 64, 0x0, 1, 1, 0x0, true⟩]

/-- Words of the EVR block. -/
def wordsEVR : List WSpec :=
  [⟨0xe00, 0x0, 1, 0x0, 1, 1, 0x0, false⟩,
   ⟨0xe00, 0x1, 1, 0x0, 1, 1, 0x0, false⟩,
   ⟨0xe00, 0x2, 1, 0x0, 1, 1, 0x0, false⟩,
   ⟨0xe00, 0x3, 1, 0x0, 1, 1, 0x0, false⟩,
   ⟨0xe00, 0x4, 1, 0x0, 1, 1, 0x0, false⟩,
   ⟨0xe00, 0x5, 1, 0x0, 1, 3, 0x0, false⟩,
   ⟨0xe00, 0x6, 1, 0x0, 1, 11, 0x3e8, false⟩,
   ⟨0xe00, 0x7, 1, 0x0, 1, 11, 0x10, false⟩,
   ⟨0xe00, 0x8, 1, 0x0, 1, 11, 0x0, false⟩,
   ⟨0xe00, 0x9, 1, 0x0, 1, 5, 0x0, false⟩,
   ⟨0xe00, 0xa, 1, 0x0, 1, 1, 0x0, true⟩,
   ⟨0xe00, 0xb, 1, 0x0, 1, 1, 0x0, true⟩,
   ⟨0xe00, 0xc, 1, 0x0, 1, 1, 0x0, true⟩,
   ⟨0xe00, 0xd, 1, 0x0, 1, 1, 0x0, true⟩,
   ⟨0xe00, 0xe, 1, 0x0, 1, 5, 0x0, false⟩,
   ⟨0xe00, 0xf, 1, 0x0, 1, 1, 0x0, true⟩,
   ⟨0xe00, 0x10, 1, 0x0, 1, 1, 0x0, false⟩,
   ⟨0xe00, 0x40, 64, 0x0, 1, 1, 0x0, false⟩]

/-- Words of the HOST block. -/
def wordsHOST : List WSpec :=
  [⟨0xf00, 0x0, 1, 0x0, 1, 11, 0x0, false⟩,
   ⟨0xf00, 0x1, 1, 0x0, 1, 11, 0xffffff00, false⟩,
   ⟨0xf00, 0x2, 1, 0x0, 1, 11, 0x0, false⟩,
   ⟨0xf00, 0x3, 1, 0x0, 1, 1, 0x0, false⟩,
   ⟨0xf00, 0x4, 1, 0x0, 1, 1, 0x0, false⟩,
   ⟨0xf00, 0x5, 1, 0x0, 1, 11, 0x3c, false⟩,
   ⟨0xf00, 0x6, 1, 0x0, 1, 1, 0x0, false⟩,
   ⟨0xf00, 0x7, 1, 0x0, 1, 1, 0x0, false⟩,
   ⟨0xf00, 0x8, 1, 0x0, 1, 5, 0x0, false⟩,
   ⟨0xf00, 0x9, 1, 0x0, 1, 1, 0x0, true⟩,
   ⟨0xf00, 0xa, 1, 0x0, 1, 1, 0x0, true⟩,
   ⟨0xf00, 0xb, 1, 0x0, 1, 1, 0x0, true⟩,
   ⟨0xf00, 0xc, 1, 0x0, 1, 1, 0x0, true⟩,
   ⟨0xf00, 0xd, 1, 0x0, 1, 1, 0x0, true⟩,
   ⟨0xf00, 0xe, 1, 0x0, 1, 5, 0x0, false⟩,
   ⟨0xf00, 0xf, 1, 0x0, 1, 1, 0x0, true⟩,
   ⟨0xf00, 0x20, 1, 0x8, 8, 1, 0x0, false⟩,
   ⟨0xf00, 0x21, 1, 0x8, 8, 9, 0x0, false⟩,
   ⟨0xf00, 0x22, 1, 0x8, 8, 9, 0x0, false⟩,
   ⟨0xf00, 0x23, 1, 0x8, 8, 1, 0x0, false⟩,
   ⟨0xf00, 0x24, 1, 0x8, 8, 1, 0x0, false⟩,
   ⟨0xf00, 0x25, 1, 0x8, 8, 1, 0x0, false⟩,
   ⟨0xf00, 0x26, 1, 0x8, 8, 1, 0x0, false⟩,
   ⟨0xf00, 0x27, 1, 0x8, 8, 1, 0x0, false⟩]

/-- Words of the UPD block. -/
def wordsUPD : List WSpec :=
  [⟨0x1000, 0x0, 1, 0x0, 1, 1, 0x0, false⟩,
   ⟨0x1000, 0x1, 1, 0x0, 1, 1, 0xff, false⟩,
   ⟨0x1000, 0x2, 1, 0x0, 1, 1, 0xff, false⟩,
   ⟨0x1000, 0x3, 1, 0x0, 1, 1, 0x0, false⟩,
   ⟨0x1000, 0x4, 1, 0x0, 1, 1, 0x0, false⟩,
   ⟨0x1000, 0x5, 1, 0x0, 1, 1, 0xff, false⟩,
   ⟨0x1000, 0x6, 1, 0x0, 1, 1, 0xff, false⟩,
   ⟨0x1000, 0x7, 1, 0x0, 1, 1, 0x0, false⟩,
   ⟨0x1000, 0x8, 1, 0x0, 1, 1, 0x0, false⟩,
   ⟨0x1000, 0x9, 1, 0x0, 1, 5, 0x0, false⟩,
   ⟨0x1000, 0xa, 1, 0x0, 1, 1, 0x0, false⟩,
   ⟨0x1000, 0xb, 1, 0x0, 1, 1, 0x0, true⟩,
   ⟨0x1000, 0xc, 1, 0x0, 1, 1, 0x0, true⟩,
   ⟨0x1000, 0xd, 1, 0x0, 1, 1, 0x0, true⟩,
   ⟨0x1000, 0xe, 1, 0x0, 1, 5, 0x0, false⟩,
   ⟨0x1000, 0xf, 1, 0x0, 1, 1, 0x0, true⟩,
   ⟨0x1000, 0x10, 1, 0x0, 1, 1, 0x0, false⟩,
   ⟨0x1000, 0x11, 1, 0x0, 1, 1, 0x0, false⟩,
   ⟨0x1000, 0x12, 1, 0x0, 1, 1, 0x0, true⟩,
   ⟨0x1000, 0x14, 4, 0x0, 1, 1, 0x0, false⟩]

/-- Words of the TRUST block. -/
def wordsTRUST : List WSpec :=
  [⟨0x1100, 0x0, 1, 0x0, 1, 1, 0x0, false⟩,
   ⟨0x1100, 0x1, 1, 0x0, 1, 1, 0x0, false⟩,
   ⟨0x1100, 0x2, 1, 0x0, 1, 1, 0x0, false⟩,
   ⟨0x1100, 0x3, 1, 0x0, 1, 1, 0x0, false⟩,
   ⟨0x1100, 0x4, 4, 0x0, 1, 1, 0x0, false⟩,
   ⟨0x1100, 0x8, 4, 0x0, 1, 1, 0x0, false⟩,
   ⟨0x1100, 0xc, 1, 0x0, 1, 1, 0x0, true⟩,
   ⟨0x1100, 0xd, 1, 0x0, 1, 5, 0x0, false⟩,
   ⟨0x1100, 0xe, 1, 0x0, 1, 5, 0x0, false⟩,
   ⟨0x1100, 0xf, 1, 0x0, 1, 1, 0x0, true⟩,
   ⟨0x1100, 0x10, 16, 0x0, 1, 1, 0x0, false⟩,
   ⟨0x1100, 0x20, 4, 0x0, 1, 1, 0x0, false⟩]

/-- Words of the POWER block. -/
def wordsPOWER : List WSpec :=
  [⟨0x1200, 0x0, 1, 0x0, 1, 1, 0x0, false⟩,
   ⟨0x1200, 0x1, 1, 0x0, 1, 5, 0x0, false⟩,
   ⟨0x1200, 0x2, 1, 0x0, 1, 1, 0x0, false⟩,
   ⟨0x1200, 0x3, 1, 0x0, 1, 1, 0x0, false⟩,
   ⟨0x1200, 0x4, 1, 0x0, 1, 1, 0x0, false⟩,
   ⟨0x1200, 0x5, 1, 0x0, 1, 1, 0x0, false⟩,
   ⟨0x1200, 0x6, 1, 0x0, 1, 1, 0x0, false⟩,
   ⟨0x1200, 0x7, 1, 0x0, 1, 1, 0x0, true⟩,
   ⟨0x1200, 0x8, 1, 0x0, 1, 1, 0x0, true⟩,
   ⟨0x1200, 0x9, 1, 0x0, 1, 11, 0x0, false⟩,
   ⟨0x1200, 0xa, 1, 0x0, 1, 1, 0x0, false⟩,
   ⟨0x1200, 0xb, 1, 0x0, 1, 1, 0x0, false⟩,
   ⟨0x1200, 0xc, 1, 0x0, 1, 1, 0x0, false⟩,
   ⟨0x1200, 0xe, 1, 0x0, 1, 5, 0x0, false⟩,
   ⟨0x1200, 0xf, 1, 0x0, 1, 1, 0x0, true⟩]

/-- Words of the block with a number; none for a reserved block (R21). -/
def blockWords (blk : Nat) : List WSpec :=
  if blk = 0x0 then wordsSYS else
  if blk = 0x100 then wordsTICK else
  if blk = 0x200 then wordsEXEC else
  if blk = 0x300 then wordsRET else
  if blk = 0x400 then wordsLINK else
  if blk = 0x500 then wordsENC else
  if blk = 0x600 then wordsLOOP else
  if blk = 0x700 then wordsTUNE else
  if blk = 0x800 then wordsPAIR else
  if blk = 0x900 then wordsBUS else
  if blk = 0xa00 then wordsDIO else
  if blk = 0xb00 then wordsPANEL else
  if blk = 0xc00 then wordsRTC else
  if blk = 0xd00 then wordsWDG else
  if blk = 0xe00 then wordsEVR else
  if blk = 0xf00 then wordsHOST else
  if blk = 0x1000 then wordsUPD else
  if blk = 0x1100 then wordsTRUST else
  if blk = 0x1200 then wordsPOWER else
  []

/-- Whether a row holds a word. -/
def WSpec.holds (r : WSpec) (w : Nat) : Bool :=
  if r.ninst = 1 then r.lo ≤ w && w < r.lo + r.n
  else r.lo ≤ w && (w - r.lo) % r.stride < r.n && (w - r.lo) / r.stride < r.ninst

/-- The row of a word address; none for a reserved word (R21). -/
def wordSpec (k : Nat) : Option WSpec := (blockWords (k / 65536)).find? fun r => r.holds (k % 65536)

/-- Reset value of a word. GREY0 to GREY15 of the panel reset to 16 × g. -/
def resetWord (k : Nat) : Word :=
  match wordSpec k with
  | none => 0
  | some r => if r.blk = 0xB00 ∧ r.lo = 0x50 then BitVec.ofNat 32 (16 * ((k % 65536 - 0x50) % 0x20)) else BitVec.ofNat 32 r.reset

/-! Word addresses by name: block number × 65,536 + word. -/

namespace K

abbrev TICK_PERIOD : Nat := 0x1000000
abbrev TICK_WINDOW : Nat := 0x1000001
abbrev TICK_COUNT_LO : Nat := 0x1000002
abbrev TICK_COUNT_HI : Nat := 0x1000003
abbrev TICK_EDGE_TS_LO : Nat := 0x1000004
abbrev TICK_EDGE_TS_HI : Nat := 0x1000005
abbrev TICK_STATUS : Nat := 0x1000006
abbrev TICK_OVR_CNT : Nat := 0x1000007
abbrev TICK_ARM_MISS_CNT : Nat := 0x1000008
abbrev TICK_EMUL_WAIT_MAX : Nat := 0x1000009
abbrev TICK_CFGREJ : Nat := 0x100000e
abbrev TICK_CFGREJ_CNT : Nat := 0x100000f
abbrev TICKk_TASKS (k : Nat) : Nat := 0x1000100 + 0x20 * k
abbrev TICKk_FRCAP (k : Nat) : Nat := 0x1000101 + 0x20 * k
abbrev TICKk_NEED_MAX (k : Nat) : Nat := 0x1000102 + 0x20 * k
abbrev TICKk_USED_LAST (k : Nat) : Nat := 0x1000103 + 0x20 * k
abbrev TICKk_USED_MAX (k : Nat) : Nat := 0x1000104 + 0x20 * k
abbrev TICKk_EVT_ALLOW (k : Nat) : Nat := 0x1000105 + 0x20 * k
abbrev TICKk_FAULT_CNT (k : Nat) : Nat := 0x1000106 + 0x20 * k
abbrev TICKk_EVT_LAT_MAX (k : Nat) : Nat := 0x1000107 + 0x20 * k
abbrev TICKk_EVT_DEFER (k i : Nat) : Nat := 0x1000108 + 0x20 * k + i
abbrev TICKk_EVT_CNT (k i : Nat) : Nat := 0x1000110 + 0x20 * k + i
abbrev EXEC_PROGID (i : Nat) : Nat := 0x2000000 + i
abbrev EXEC_EXCH_STATE : Nat := 0x2000004
abbrev EXEC_EXCH_POS : Nat := 0x2000005
abbrev EXEC_EXCH_TICKS : Nat := 0x2000006
abbrev EXEC_MIGR_LINES : Nat := 0x2000007
abbrev EXEC_EDIT_QUEUE : Nat := 0x2000008
abbrev EXEC_EDIT_CNT : Nat := 0x2000009
abbrev EXEC_EDIT_REJ_CNT : Nat := 0x200000a
abbrev EXEC_FORCE_CNT : Nat := 0x200000b
abbrev EXEC_FORCE_DROP_CNT : Nat := 0x200000c
abbrev EXEC_STATUS : Nat := 0x200000d
abbrev EXEC_CFGREJ : Nat := 0x200000e
abbrev EXEC_CFGREJ_CNT : Nat := 0x200000f
abbrev RET_LIMIT : Nat := 0x3000000
abbrev RET_CHGMAX : Nat := 0x3000001
abbrev RET_LOOP_ALLOW : Nat := 0x3000002
abbrev RET_CHG_LAST : Nat := 0x3000003
abbrev RET_CHG_MAX : Nat := 0x3000004
abbrev RET_COMMIT_LAST : Nat := 0x3000005
abbrev RET_COMMIT_MAX : Nat := 0x3000006
abbrev RET_DURABLE_LO : Nat := 0x3000007
abbrev RET_DURABLE_HI : Nat := 0x3000008
abbrev RET_OVR_CNT : Nat := 0x3000009
abbrev RET_MRAM_CE_CNT : Nat := 0x300000a
abbrev RET_REBUILD_CNT : Nat := 0x300000b
abbrev RET_MIRROR_LAG_MAX : Nat := 0x300000c
abbrev RET_STATUS : Nat := 0x300000d
abbrev RET_CFGREJ : Nat := 0x300000e
abbrev RET_CFGREJ_CNT : Nat := 0x300000f
abbrev SYS_STATE : Nat := 0x20
abbrev SYS_CEDAR_REASON : Nat := 0x21
abbrev SYS_CEDAR_SOURCE : Nat := 0x22
abbrev SYS_START_KIND : Nat := 0x23
abbrev SYS_START_TIME : Nat := 0x24
abbrev SYS_START_CNT : Nat := 0x25
abbrev POWER_PRESENT : Nat := 0x12000000
abbrev POWER_STATUS : Nat := 0x12000001
abbrev POWER_LPLUS_MV : Nat := 0x12000002
abbrev POWER_M1_MV : Nat := 0x12000003
abbrev POWER_M2_MV : Nat := 0x12000004
abbrev POWER_BANK_MV : Nat := 0x12000005
abbrev POWER_VBAK_MV : Nat := 0x12000006
abbrev POWER_M1_LOSS_CNT : Nat := 0x12000007
abbrev POWER_M2_LOSS_CNT : Nat := 0x12000008
abbrev POWER_WAKE_CTRL : Nat := 0x12000009
abbrev POWER_WAKE_CAUSE : Nat := 0x1200000a
abbrev POWER_WAKE_TS_LO : Nat := 0x1200000b
abbrev POWER_WAKE_TS_HI : Nat := 0x1200000c
abbrev POWER_CFGREJ : Nat := 0x1200000e
abbrev POWER_CFGREJ_CNT : Nat := 0x1200000f
abbrev LINK_UPMASK : Nat := 0x4000000
abbrev LINK_STATUS : Nat := 0x4000001
abbrev LINK_CFGREJ : Nat := 0x400000e
abbrev LINK_CFGREJ_CNT : Nat := 0x400000f
abbrev LINKk_ENABLE (k : Nat) : Nat := 0x4000100 + 0x80 * k
abbrev LINKk_HEADS (k : Nat) : Nat := 0x4000101 + 0x80 * k
abbrev LINKk_END (k : Nat) : Nat := 0x4000102 + 0x80 * k
abbrev LINKk_POLICY (k : Nat) : Nat := 0x4000103 + 0x80 * k
abbrev LINKk_HTO (k : Nat) : Nat := 0x4000104 + 0x80 * k
abbrev LINKk_HMISS_LIM (k : Nat) : Nat := 0x4000105 + 0x80 * k
abbrev LINKk_LLOSS_LIM (k : Nat) : Nat := 0x4000106 + 0x80 * k
abbrev LINKk_STATE (k : Nat) : Nat := 0x4000108 + 0x80 * k
abbrev LINKk_STATUS (k : Nat) : Nat := 0x4000109 + 0x80 * k
abbrev LINKk_PRESENT (k : Nat) : Nat := 0x400010a + 0x80 * k
abbrev LINKk_LOST (k : Nat) : Nat := 0x400010b + 0x80 * k
abbrev LINKk_UP_CRC_CNT (k : Nat) : Nat := 0x400010c + 0x80 * k
abbrev LINKk_UP_MISS_CNT (k : Nat) : Nat := 0x400010d + 0x80 * k
abbrev LINKk_SEC_CRC_CNT (k : Nat) : Nat := 0x400010e + 0x80 * k
abbrev LINKk_FENCE_CNT (k : Nat) : Nat := 0x400010f + 0x80 * k
abbrev LINKk_LATE_CNT (k : Nat) : Nat := 0x4000110 + 0x80 * k
abbrev LINKk_START_CNT (k : Nat) : Nat := 0x4000111 + 0x80 * k
abbrev LINKk_BREAK_POS (k : Nat) : Nat := 0x4000112 + 0x80 * k
abbrev LINKk_LOSS_CNT (k : Nat) : Nat := 0x4000113 + 0x80 * k
abbrev LINKk_LISTEN_OK_CNT (k : Nat) : Nat := 0x4000114 + 0x80 * k
abbrev LINKk_LISTEN_ERR_CNT (k : Nat) : Nat := 0x4000115 + 0x80 * k
abbrev LINKk_HEAD_ID (k i : Nat) : Nat := 0x4000120 + 0x80 * k + i
abbrev LINKk_DELAY (k i : Nat) : Nat := 0x4000140 + 0x80 * k + i
abbrev LINKk_SERIAL (k i : Nat) : Nat := 0x4000160 + 0x80 * k + i
abbrev ENC_ANGLE_PORT : Nat := 0x5000000
abbrev ENC_STATUS : Nat := 0x5000001
abbrev ENC_THETA0 : Nat := 0x5000002
abbrev ENC_OMEGA : Nat := 0x5000003
abbrev ENC_AVALID : Nat := 0x5000004
abbrev ENC_REV_CNT : Nat := 0x5000005
abbrev ENC_CFGREJ : Nat := 0x500000e
abbrev ENC_CFGREJ_CNT : Nat := 0x500000f
abbrev ENCk_ENABLE (k : Nat) : Nat := 0x5000100 + 0x40 * k
abbrev ENCk_MODE (k : Nat) : Nat := 0x5000101 + 0x40 * k
abbrev ENCk_SUPPLY (k : Nat) : Nat := 0x5000102 + 0x40 * k
abbrev ENCk_LINES (k : Nat) : Nat := 0x5000103 + 0x40 * k
abbrev ENCk_ZMODE (k : Nat) : Nat := 0x5000104 + 0x40 * k
abbrev ENCk_ZTOL (k : Nat) : Nat := 0x5000105 + 0x40 * k
abbrev ENCk_FILT (k : Nat) : Nat := 0x5000106 + 0x40 * k
abbrev ENCk_INVERT (k : Nat) : Nat := 0x5000107 + 0x40 * k
abbrev ENCk_ZERO_OFS (k : Nat) : Nat := 0x5000108 + 0x40 * k
abbrev ENCk_CLKDIV (k : Nat) : Nat := 0x5000109 + 0x40 * k
abbrev ENCk_DATABITS (k : Nat) : Nat := 0x500010a + 0x40 * k
abbrev ENCk_STBITS (k : Nat) : Nat := 0x500010b + 0x40 * k
abbrev ENCk_CODE (k : Nat) : Nat := 0x500010c + 0x40 * k
abbrev ENCk_SDLY (k : Nat) : Nat := 0x500010d + 0x40 * k
abbrev ENCk_TMONO (k : Nat) : Nat := 0x500010e + 0x40 * k
abbrev ENCk_RATE_WIN (k : Nat) : Nat := 0x500010f + 0x40 * k
abbrev ENCk_STILL_US (k : Nat) : Nat := 0x5000110 + 0x40 * k
abbrev ENCk_COAST (k : Nat) : Nat := 0x5000111 + 0x40 * k
abbrev ENCk_LEAD (k : Nat) : Nat := 0x5000112 + 0x40 * k
abbrev ENCk_STATUS (k : Nat) : Nat := 0x5000113 + 0x40 * k
abbrev ENCk_ILL_CNT (k : Nat) : Nat := 0x5000114 + 0x40 * k
abbrev ENCk_LINE_CNT (k : Nat) : Nat := 0x5000115 + 0x40 * k
abbrev ENCk_SER_CNT (k : Nat) : Nat := 0x5000116 + 0x40 * k
abbrev ENCk_ZCORR_CNT (k : Nat) : Nat := 0x5000117 + 0x40 * k
abbrev ENCk_ZERR_CNT (k : Nat) : Nat := 0x5000118 + 0x40 * k
abbrev LOOP_NLOOP : Nat := 0x6000000
abbrev LOOP_ENMASK (i : Nat) : Nat := 0x6000001 + i
abbrev LOOP_CLMASK (i : Nat) : Nat := 0x6000004 + i
abbrev LOOP_DUE_LAST : Nat := 0x6000007
abbrev LOOP_ENGINE_NS_LAST : Nat := 0x6000008
abbrev LOOP_CFGREJ : Nat := 0x600000e
abbrev LOOP_CFGREJ_CNT : Nat := 0x600000f
abbrev LOOP_CAMINFO (i : Nat) : Nat := 0x6000020 + i
abbrev LOOPk_ENABLE (k : Nat) : Nat := 0x6000100 + 0x40 * k
abbrev LOOPk_STATE (k : Nat) : Nat := 0x6000101 + 0x40 * k
abbrev LOOPk_DIV (k : Nat) : Nat := 0x6000102 + 0x40 * k
abbrev LOOPk_PH (k : Nat) : Nat := 0x6000103 + 0x40 * k
abbrev LOOPk_REFMODE (k : Nat) : Nat := 0x6000104 + 0x40 * k
abbrev LOOPk_YSRC (k : Nat) : Nat := 0x6000105 + 0x40 * k
abbrev LOOPk_YVAL (k : Nat) : Nat := 0x6000106 + 0x40 * k
abbrev LOOPk_YSCALE (k : Nat) : Nat := 0x6000107 + 0x40 * k
abbrev LOOPk_YOFS (k : Nat) : Nat := 0x6000108 + 0x40 * k
abbrev LOOPk_KP (k : Nat) : Nat := 0x6000109 + 0x40 * k
abbrev LOOPk_KI (k : Nat) : Nat := 0x600010a + 0x40 * k
abbrev LOOPk_KD (k : Nat) : Nat := 0x600010b + 0x40 * k
abbrev LOOPk_TF (k : Nat) : Nat := 0x600010c + 0x40 * k
abbrev LOOPk_B (k : Nat) : Nat := 0x600010d + 0x40 * k
abbrev LOOPk_KV (k : Nat) : Nat := 0x600010e + 0x40 * k
abbrev LOOPk_KAW (k : Nat) : Nat := 0x600010f + 0x40 * k
abbrev LOOPk_UMIN (k : Nat) : Nat := 0x6000110 + 0x40 * k
abbrev LOOPk_UMAX (k : Nat) : Nat := 0x6000111 + 0x40 * k
abbrev LOOPk_URATE (k : Nat) : Nat := 0x6000112 + 0x40 * k
abbrev LOOPk_VMAX (k : Nat) : Nat := 0x6000113 + 0x40 * k
abbrev LOOPk_AMAX (k : Nat) : Nat := 0x6000114 + 0x40 * k
abbrev LOOPk_JMAX (k : Nat) : Nat := 0x6000115 + 0x40 * k
abbrev LOOPk_PTOL (k : Nat) : Nat := 0x6000116 + 0x40 * k
abbrev LOOPk_LOSS_LIM (k : Nat) : Nat := 0x6000117 + 0x40 * k
abbrev LOOPk_POLICY (k : Nat) : Nat := 0x6000118 + 0x40 * k
abbrev LOOPk_USAFE (k : Nat) : Nat := 0x6000119 + 0x40 * k
abbrev LOOPk_GF (k : Nat) : Nat := 0x600011a + 0x40 * k
abbrev LOOPk_STATUS (k : Nat) : Nat := 0x600011b + 0x40 * k
abbrev LOOPk_UPD_CNT (k : Nat) : Nat := 0x600011c + 0x40 * k
abbrev LOOPk_LOSS_CNT (k : Nat) : Nat := 0x600011d + 0x40 * k
abbrev LOOPk_SAT_CNT (k : Nat) : Nat := 0x600011e + 0x40 * k
abbrev LOOPk_NUM_CNT (k : Nat) : Nat := 0x600011f + 0x40 * k
abbrev LOOPk_Y_LAST (k : Nat) : Nat := 0x6000120 + 0x40 * k
abbrev LOOPk_U_LAST (k : Nat) : Nat := 0x6000121 + 0x40 * k
abbrev LOOPk_I_LAST (k : Nat) : Nat := 0x6000122 + 0x40 * k
abbrev TUNE_CAP_STATE : Nat := 0x7000000
abbrev TUNE_CAP_LOOP : Nat := 0x7000001
abbrev TUNE_CAP_CNT : Nat := 0x7000002
abbrev TUNE_CAP_CUR : Nat := 0x7000003
abbrev TUNE_STATUS : Nat := 0x7000004
abbrev TUNE_RUN_CNT : Nat := 0x7000005
abbrev TUNE_ABORT_CNT : Nat := 0x7000006
abbrev TUNE_CFGREJ : Nat := 0x700000e
abbrev TUNE_CFGREJ_CNT : Nat := 0x700000f
abbrev TUNE_CAP_WIN (i : Nat) : Nat := 0x7000040 + i
abbrev TUNEk_CTRL (k : Nat) : Nat := 0x7000100 + 0x40 * k
abbrev TUNEk_SIG (k : Nat) : Nat := 0x7000101 + 0x40 * k
abbrev TUNEk_AMP (k : Nat) : Nat := 0x7000102 + 0x40 * k
abbrev TUNEk_TLEN (k : Nat) : Nat := 0x7000103 + 0x40 * k
abbrev TUNEk_TDEC (k : Nat) : Nat := 0x7000104 + 0x40 * k
abbrev TUNEk_YEXC (k : Nat) : Nat := 0x7000105 + 0x40 * k
abbrev TUNEk_TAUC (k : Nat) : Nat := 0x7000106 + 0x40 * k
abbrev TUNEk_FITMIN (k : Nat) : Nat := 0x7000107 + 0x40 * k
abbrev TUNEk_MAXCHG (k : Nat) : Nat := 0x7000108 + 0x40 * k
abbrev TUNEk_SCHSRC (k : Nat) : Nat := 0x7000109 + 0x40 * k
abbrev TUNEk_SCHVAL (k : Nat) : Nat := 0x700010a + 0x40 * k
abbrev TUNEk_SCHSLEW (k : Nat) : Nat := 0x700010b + 0x40 * k
abbrev TUNEk_SCHN (k : Nat) : Nat := 0x700010c + 0x40 * k
abbrev TUNEk_SCHX (k i : Nat) : Nat := 0x7000110 + 0x40 * k + i
abbrev TUNEk_SCHG (k i : Nat) : Nat := 0x7000118 + 0x40 * k + i
abbrev TUNEk_SUPWIN (k : Nat) : Nat := 0x7000120 + 0x40 * k
abbrev TUNEk_DEGR (k : Nat) : Nat := 0x7000121 + 0x40 * k
abbrev TUNEk_SUPN (k : Nat) : Nat := 0x7000122 + 0x40 * k
abbrev TUNEk_OSCLIM (k : Nat) : Nat := 0x7000123 + 0x40 * k
abbrev TUNEk_OSCBAND (k : Nat) : Nat := 0x7000124 + 0x40 * k
abbrev TUNEk_RUN_STATE (k : Nat) : Nat := 0x7000128 + 0x40 * k
abbrev TUNEk_J0 (k : Nat) : Nat := 0x7000129 + 0x40 * k
abbrev TUNEk_J_LAST (k : Nat) : Nat := 0x700012a + 0x40 * k
abbrev TUNEk_MODEL_K (k : Nat) : Nat := 0x700012b + 0x40 * k
abbrev TUNEk_MODEL_TAU (k : Nat) : Nat := 0x700012c + 0x40 * k
abbrev TUNEk_MODEL_THETA (k : Nat) : Nat := 0x700012d + 0x40 * k
abbrev TUNEk_FIT (k : Nat) : Nat := 0x700012e + 0x40 * k
abbrev TUNEk_PROP_KP (k : Nat) : Nat := 0x7000130 + 0x40 * k
abbrev TUNEk_PROP_KI (k : Nat) : Nat := 0x7000131 + 0x40 * k
abbrev TUNEk_PROP_KD (k : Nat) : Nat := 0x7000132 + 0x40 * k
abbrev TUNEk_PROP_TF (k : Nat) : Nat := 0x7000133 + 0x40 * k
abbrev TUNEk_PROP_STATE (k : Nat) : Nat := 0x7000134 + 0x40 * k
abbrev TUNEk_STATUS (k : Nat) : Nat := 0x7000135 + 0x40 * k
abbrev TUNEk_DEGR_CNT (k : Nat) : Nat := 0x7000136 + 0x40 * k
abbrev TUNEk_OSC_CNT (k : Nat) : Nat := 0x7000137 + 0x40 * k
abbrev TUNEk_SCHINV_CNT (k : Nat) : Nat := 0x7000138 + 0x40 * k
abbrev PAIR_S_ENABLE : Nat := 0x8000000
abbrev PAIR_PREF : Nat := 0x8000001
abbrev PAIR_LEASE : Nat := 0x8000002
abbrev PAIR_HOSTADDR : Nat := 0x8000003
abbrev PAIR_ROLE : Nat := 0x8000004
abbrev PAIR_PEER_ROLE : Nat := 0x8000005
abbrev PAIR_EPOCH : Nat := 0x8000006
abbrev PAIR_LANES : Nat := 0x8000007
abbrev PAIR_STATUS : Nat := 0x8000008
abbrev PAIR_DELAY_A : Nat := 0x8000009
abbrev PAIR_DELAY_B : Nat := 0x800000a
abbrev PAIR_SYNC_DONE : Nat := 0x800000b
abbrev PAIR_SYNC_TOTAL : Nat := 0x800000c
abbrev PAIR_SWAP_STATE : Nat := 0x800000d
abbrev PAIR_CFGREJ : Nat := 0x800000e
abbrev PAIR_CFGREJ_CNT : Nat := 0x800000f
abbrev PAIR_TAKEOVER_CNT : Nat := 0x8000010
abbrev PAIR_LOSS_A_CNT : Nat := 0x8000011
abbrev PAIR_LOSS_B_CNT : Nat := 0x8000012
abbrev PAIR_PKT_ERR_CNT : Nat := 0x8000013
abbrev PAIR_LEASE_LEFT : Nat := 0x8000014
abbrev PAIR_J_ENABLE : Nat := 0x8000080
abbrev PAIR_J_MEMBER : Nat := 0x8000081
abbrev PAIR_J_POLICY : Nat := 0x8000082
abbrev PAIR_JX_LIM : Nat := 0x8000083
abbrev PAIR_J_STATE : Nat := 0x8000084
abbrev PAIR_J_LANES : Nat := 0x8000085
abbrev PAIR_J_STATUS : Nat := 0x8000086
abbrev PAIR_J_ALIGN_LAST : Nat := 0x8000087
abbrev PAIR_J_ALIGN_MAX : Nat := 0x8000088
abbrev PAIR_J_DELAY_A : Nat := 0x8000089
abbrev PAIR_J_DELAY_B : Nat := 0x800008a
abbrev PAIR_XOUT_LIMIT : Nat := 0x800008b
abbrev PAIR_XLATE_CNT : Nat := 0x800008c
abbrev PAIR_J_LOSS_CNT : Nat := 0x800008d
abbrev PAIR_QUAD : Nat := 0x800008e
abbrev BUS_BUSOFF : Nat := 0x9000000
abbrev BUS_CFGREJ : Nat := 0x900000e
abbrev BUS_CFGREJ_CNT : Nat := 0x900000f
abbrev BUSk_ENABLE (k : Nat) : Nat := 0x9000400 + 0x400 * k
abbrev BUSk_MODE (k : Nat) : Nat := 0x9000401 + 0x400 * k
abbrev BUSk_NBT (k : Nat) : Nat := 0x9000402 + 0x400 * k
abbrev BUSk_DBT (k : Nat) : Nat := 0x9000403 + 0x400 * k
abbrev BUSk_TDC (k : Nat) : Nat := 0x9000404 + 0x400 * k
abbrev BUSk_KCYC (k : Nat) : Nat := 0x9000405 + 0x400 * k
abbrev BUSk_BOFF_WAIT (k : Nat) : Nat := 0x9000406 + 0x400 * k
abbrev BUSk_BOFF_LIM (k : Nat) : Nat := 0x9000407 + 0x400 * k
abbrev BUSk_NOMATCH (k : Nat) : Nat := 0x9000408 + 0x400 * k
abbrev BUSk_TERM (k : Nat) : Nat := 0x9000409 + 0x400 * k
abbrev BUSk_STATE (k : Nat) : Nat := 0x900040a + 0x400 * k
abbrev BUSk_STATUS (k : Nat) : Nat := 0x900040b + 0x400 * k
abbrev BUSk_ERRCNT (k : Nat) : Nat := 0x900040c + 0x400 * k
abbrev BUSk_RX_CNT (k : Nat) : Nat := 0x900040d + 0x400 * k
abbrev BUSk_TX_CNT (k : Nat) : Nat := 0x900040e + 0x400 * k
abbrev BUSk_TXMISS_CNT (k : Nat) : Nat := 0x900040f + 0x400 * k
abbrev BUSk_FIFO_OVR_CNT (k : Nat) : Nat := 0x9000410 + 0x400 * k
abbrev BUSk_HP_OVR_CNT (k : Nat) : Nat := 0x9000411 + 0x400 * k
abbrev BUSk_BOFF_CNT (k : Nat) : Nat := 0x9000412 + 0x400 * k
abbrev BUSk_ERR_CNT (k : Nat) : Nat := 0x9000413 + 0x400 * k
abbrev BUSk_ARBLOST_CNT (k : Nat) : Nat := 0x9000414 + 0x400 * k
abbrev BUSk_RTR_CNT (k : Nat) : Nat := 0x9000415 + 0x400 * k
abbrev BUSk_NOMATCH_CNT (k : Nat) : Nat := 0x9000416 + 0x400 * k
abbrev BUSk_TXFMT_CNT (k : Nat) : Nat := 0x9000417 + 0x400 * k
abbrev BUSk_WOFS (k i : Nat) : Nat := 0x9000420 + 0x400 * k + i
abbrev BUSk_TXMODE (k i : Nat) : Nat := 0x9000440 + 0x400 * k + i
abbrev BUSk_TXMAP (k i : Nat) : Nat := 0x9000450 + 0x400 * k + i
abbrev BUSk_TXSCALE (k i : Nat) : Nat := 0x9000460 + 0x400 * k + i
abbrev BUSk_FID (k i : Nat) : Nat := 0x9000480 + 0x400 * k + i
abbrev BUSk_FMASK (k i : Nat) : Nat := 0x90004c0 + 0x400 * k + i
abbrev BUSk_FDEST (k i : Nat) : Nat := 0x9000500 + 0x400 * k + i
abbrev BUSk_MATRIX (k i : Nat) : Nat := 0x9000600 + 0x400 * k + i
abbrev DIO_ENABLE : Nat := 0xa000000
abbrev DIO_WB_EN : Nat := 0xa000002
abbrev DIO_COS_EN : Nat := 0xa000003
abbrev DIO_EVPOL : Nat := 0xa000004
abbrev DIO_PAR : Nat := 0xa000005
abbrev DIO_SAFEVAL : Nat := 0xa000006
abbrev DIO_SAFEKEEP : Nat := 0xa000007
abbrev DIO_RETRY_MS : Nat := 0xa000008
abbrev DIO_RETRY_LIM : Nat := 0xa000009
abbrev DIO_OL_EN : Nat := 0xa00000a
abbrev DIO_STATUS : Nat := 0xa00000b
abbrev DIO_DI_STATE : Nat := 0xa00000c
abbrev DIO_DO_STATE : Nat := 0xa00000d
abbrev DIO_CFGREJ : Nat := 0xa00000e
abbrev DIO_CFGREJ_CNT : Nat := 0xa00000f
abbrev DIO_RB : Nat := 0xa000010
abbrev DIO_BREAK : Nat := 0xa000011
abbrev DIO_LATCHED : Nat := 0xa000012
abbrev DIO_OPENLD : Nat := 0xa000013
abbrev DIO_OVL_CNT : Nat := 0xa000014
abbrev DIO_MISMATCH_CNT : Nat := 0xa000015
abbrev DIO_BREAK_CNT : Nat := 0xa000016
abbrev DIO_COS_LOST_CNT : Nat := 0xa000017
abbrev DIO_RETRY_CNT : Nat := 0xa000018
abbrev DIO_FLIM (i : Nat) : Nat := 0xa000020 + i
abbrev PANEL_ENABLE : Nat := 0xb000000
abbrev PANEL_PLANES : Nat := 0xb000001
abbrev PANEL_COMS : Nat := 0xb000002
abbrev PANEL_SEGS : Nat := 0xb000003
abbrev PANEL_VC_MAX : Nat := 0xb000004
abbrev PANEL_VS_MAX : Nat := 0xb000005
abbrev PANEL_BLINK_MS : Nat := 0xb000006
abbrev PANEL_RAIL_IDLE : Nat := 0xb000007
abbrev PANEL_STATE : Nat := 0xb000008
abbrev PANEL_STATUS : Nat := 0xb000009
abbrev PANEL_ACTIVE : Nat := 0xb00000a
abbrev PANEL_PENDING : Nat := 0xb00000b
abbrev PANEL_LINES_CNT : Nat := 0xb00000c
abbrev PANEL_RAILFLT_CNT : Nat := 0xb00000d
abbrev PANEL_CFGREJ : Nat := 0xb00000e
abbrev PANEL_CFGREJ_CNT : Nat := 0xb00000f
abbrev PANEL_RECOVER_CNT : Nat := 0xb000010
abbrev PANEL_REQ_REPL_CNT : Nat := 0xb000011
abbrev PANEL_VCP_MV : Nat := 0xb000012
abbrev PANEL_VCN_MV : Nat := 0xb000013
abbrev PANEL_VSP_MV : Nat := 0xb000014
abbrev PANEL_VSN_MV : Nat := 0xb000015
abbrev PANEL_REG (i : Nat) : Nat := 0xb000020 + i
abbrev PANELk_VC (k : Nat) : Nat := 0xb000040 + 0x20 * k
abbrev PANELk_VSEL (k : Nat) : Nat := 0xb000041 + 0x20 * k
abbrev PANELk_VS (k : Nat) : Nat := 0xb000042 + 0x20 * k
abbrev PANELk_TRST (k : Nat) : Nat := 0xb000043 + 0x20 * k
abbrev PANELk_TSEL (k : Nat) : Nat := 0xb000044 + 0x20 * k
abbrev PANELk_TEVO (k : Nat) : Nat := 0xb000045 + 0x20 * k
abbrev PANELk_BLINKGREY (k : Nat) : Nat := 0xb000046 + 0x20 * k
abbrev PANELk_GREY (k i : Nat) : Nat := 0xb000050 + 0x20 * k + i
abbrev RTC_SEC_TS_LO : Nat := 0xc000000
abbrev RTC_SEC_TS_HI : Nat := 0xc000001
abbrev RTC_SUBSEC : Nat := 0xc000002
abbrev RTC_SECOND : Nat := 0xc000003
abbrev RTC_MINUTE : Nat := 0xc000004
abbrev RTC_HOUR : Nat := 0xc000005
abbrev RTC_WDAY : Nat := 0xc000006
abbrev RTC_DAY : Nat := 0xc000007
abbrev RTC_MONTH : Nat := 0xc000008
abbrev RTC_YEAR : Nat := 0xc000009
abbrev RTC_STATUS : Nat := 0xc00000a
abbrev RTC_SCAP_MV : Nat := 0xc00000b
abbrev RTC_CHARGE : Nat := 0xc00000c
abbrev RTC_CFGREJ : Nat := 0xc00000e
abbrev RTC_CFGREJ_CNT : Nat := 0xc00000f
abbrev RTC_SET_SUBSEC : Nat := 0xc000010
abbrev RTC_SET_SECOND : Nat := 0xc000011
abbrev RTC_SET_MINUTE : Nat := 0xc000012
abbrev RTC_SET_HOUR : Nat := 0xc000013
abbrev RTC_SET_DAY : Nat := 0xc000014
abbrev RTC_SET_MONTH : Nat := 0xc000015
abbrev RTC_SET_YEAR : Nat := 0xc000016
abbrev RTC_SET_CMD : Nat := 0xc000017
abbrev RTC_WREJ_CNT : Nat := 0xc000018
abbrev RTC_SET_CNT : Nat := 0xc000019
abbrev RTC_ALM_EN : Nat := 0xc000020
abbrev RTC_ALM0_T : Nat := 0xc000021
abbrev RTC_ALM0_D : Nat := 0xc000022
abbrev RTC_ALM1_T : Nat := 0xc000023
abbrev RTC_ALM1_D : Nat := 0xc000024
abbrev WDG_W_OPEN_CFG : Nat := 0xd000000
abbrev WDG_W_CLOSE_CFG : Nat := 0xd000001
abbrev WDG_W_OPEN : Nat := 0xd000002
abbrev WDG_W_CLOSE : Nat := 0xd000003
abbrev WDG_T_LAST : Nat := 0xd000004
abbrev WDG_T_MIN : Nat := 0xd000005
abbrev WDG_T_MAX : Nat := 0xd000006
abbrev WDG_STATUS : Nat := 0xd000007
abbrev WDG_LAST_CAUSE : Nat := 0xd000008
abbrev WDG_L1_WIN : Nat := 0xd000009
abbrev WDG_L1_LIM : Nat := 0xd00000a
abbrev WDG_L2_WIN : Nat := 0xd00000b
abbrev WDG_L2_LIM : Nat := 0xd00000c
abbrev WDG_CFGREJ : Nat := 0xd00000e
abbrev WDG_CFGREJ_CNT : Nat := 0xd00000f
abbrev WDG_N1 : Nat := 0xd000010
abbrev WDG_N2 : Nat := 0xd000011
abbrev WDG_POWERUP : Nat := 0xd000012
abbrev WDG_SAFE : Nat := 0xd000013
abbrev WDG_EXP_CNT : Nat := 0xd000014
abbrev WDG_EARLY_CNT : Nat := 0xd000015
abbrev WDG_L1_CNT : Nat := 0xd000016
abbrev WDG_L2_CNT : Nat := 0xd000017
abbrev WDG_L3_CNT : Nat := 0xd000018
abbrev WDG_FQ_OVF_CNT : Nat := 0xd000019
abbrev WDG_ABANDON_CNT : Nat := 0xd00001a
abbrev WDG_REC_FLT_CNT : Nat := 0xd00001b
abbrev WDG_EV_NEXT : Nat := 0xd00001c
abbrev WDG_EV_CUR : Nat := 0xd00001d
abbrev WDG_EV_WIN (i : Nat) : Nat := 0xd000040 + i
abbrev EVR_NEWEST_SEQ : Nat := 0xe000000
abbrev EVR_NEWEST_OFS : Nat := 0xe000001
abbrev EVR_OLDEST_SEQ : Nat := 0xe000002
abbrev EVR_OLDEST_OFS : Nat := 0xe000003
abbrev EVR_COUNT : Nat := 0xe000004
abbrev EVR_CUR : Nat := 0xe000005
abbrev EVR_BURST_MS : Nat := 0xe000006
abbrev EVR_PROG_LIM : Nat := 0xe000007
abbrev EVR_CLEAR : Nat := 0xe000008
abbrev EVR_STATUS : Nat := 0xe000009
abbrev EVR_WRAP_CNT : Nat := 0xe00000a
abbrev EVR_PROG_CNT : Nat := 0xe00000b
abbrev EVR_PROG_DROP_CNT : Nat := 0xe00000c
abbrev EVR_PROGREJ_CNT : Nat := 0xe00000d
abbrev EVR_CFGREJ : Nat := 0xe00000e
abbrev EVR_CFGREJ_CNT : Nat := 0xe00000f
abbrev EVR_OPEN : Nat := 0xe000010
abbrev EVR_WIN (i : Nat) : Nat := 0xe000040 + i
abbrev SYS_PRODUCT : Nat := 0x0
abbrev SYS_ISSUE : Nat := 0x1
abbrev SYS_GRADE : Nat := 0x2
abbrev SYS_SERIAL_LO : Nat := 0x3
abbrev SYS_SERIAL_HI : Nat := 0x4
abbrev SYS_MAC_LO : Nat := 0x5
abbrev SYS_MAC_HI : Nat := 0x6
abbrev SYS_TB_LO : Nat := 0x7
abbrev SYS_TB_HI : Nat := 0x8
abbrev SYS_BHP_PORT : Nat := 0x9
abbrev SYS_CFGREJ : Nat := 0xe
abbrev SYS_CFGREJ_CNT : Nat := 0xf
abbrev SYS_DEVID (i : Nat) : Nat := 0x10 + i
abbrev HOST_IPADDR : Nat := 0xf000000
abbrev HOST_NETMASK : Nat := 0xf000001
abbrev HOST_GATEWAY : Nat := 0xf000002
abbrev HOST_SVCADDR : Nat := 0xf000003
abbrev HOST_PORTS : Nat := 0xf000004
abbrev HOST_SESS_TO : Nat := 0xf000005
abbrev HOST_SESS_MASK : Nat := 0xf000006
abbrev HOST_PRIV_MASK : Nat := 0xf000007
abbrev HOST_STATUS : Nat := 0xf000008
abbrev HOST_REQ_CNT : Nat := 0xf000009
abbrev HOST_DUP_CNT : Nat := 0xf00000a
abbrev HOST_DROP_CNT : Nat := 0xf00000b
abbrev HOST_MACFAIL_CNT : Nat := 0xf00000c
abbrev HOST_AUTHFAIL_CNT : Nat := 0xf00000d
abbrev HOST_CFGREJ : Nat := 0xf00000e
abbrev HOST_CFGREJ_CNT : Nat := 0xf00000f
abbrev HOSTk_S_STATE (k : Nat) : Nat := 0xf000020 + 0x8 * k
abbrev HOSTk_S_NONCE_LO (k : Nat) : Nat := 0xf000021 + 0x8 * k
abbrev HOSTk_S_NONCE_HI (k : Nat) : Nat := 0xf000022 + 0x8 * k
abbrev HOSTk_S_NEXT (k : Nat) : Nat := 0xf000023 + 0x8 * k
abbrev HOSTk_S_HELD (k : Nat) : Nat := 0xf000024 + 0x8 * k
abbrev HOSTk_S_PEER_IP (k : Nat) : Nat := 0xf000025 + 0x8 * k
abbrev HOSTk_S_PEER_PORT (k : Nat) : Nat := 0xf000026 + 0x8 * k
abbrev HOSTk_S_IDLE (k : Nat) : Nat := 0xf000027 + 0x8 * k
abbrev UPD_STATE : Nat := 0x10000000
abbrev UPD_SLOT : Nat := 0x10000001
abbrev UPD_HOLDER : Nat := 0x10000002
abbrev UPD_LENGTH : Nat := 0x10000003
abbrev UPD_ERASED_TO : Nat := 0x10000004
abbrev UPD_ACTIVE : Nat := 0x10000005
abbrev UPD_BOOTED : Nat := 0x10000006
abbrev UPD_BR_SEQ_LO : Nat := 0x10000007
abbrev UPD_BR_SEQ_HI : Nat := 0x10000008
abbrev UPD_STATUS : Nat := 0x10000009
abbrev UPD_VRESULT : Nat := 0x1000000a
abbrev UPD_BLOCK_CNT : Nat := 0x1000000b
abbrev UPD_REFUSE_CNT : Nat := 0x1000000c
abbrev UPD_RECOVER_CNT : Nat := 0x1000000d
abbrev UPD_CFGREJ : Nat := 0x1000000e
abbrev UPD_CFGREJ_CNT : Nat := 0x1000000f
abbrev UPD_CARRIER_MIB : Nat := 0x10000010
abbrev UPD_SLOT_SIZE : Nat := 0x10000011
abbrev UPD_ERASE_CNT : Nat := 0x10000012
abbrev UPD_VMEAS (i : Nat) : Nat := 0x10000014 + i
abbrev TRUST_ROLLBACK : Nat := 0x11000000
abbrev TRUST_OWNER_MASK : Nat := 0x11000001
abbrev TRUST_HOSTKEYS : Nat := 0x11000002
abbrev TRUST_RUN_ROLLBACK : Nat := 0x11000003
abbrev TRUST_EXEC_MEAS (i : Nat) : Nat := 0x11000004 + i
abbrev TRUST_IMG_MEAS (i : Nat) : Nat := 0x11000008 + i
abbrev TRUST_ATTEST_CNT : Nat := 0x1100000c
abbrev TRUST_STATUS : Nat := 0x1100000d
abbrev TRUST_CFGREJ : Nat := 0x1100000e
abbrev TRUST_CFGREJ_CNT : Nat := 0x1100000f
abbrev TRUST_OWNERFP (i : Nat) : Nat := 0x11000010 + i
abbrev TRUST_ROM_MEAS (i : Nat) : Nat := 0x11000020 + i

end K

end Sys2Proof.Machine
end

