-- ==== Sys2Proof/Machine/State.lean ====
section
/-! DEFINITION. The state of the module: every register, buffer, queue, counter, mode and pin that the
manual gives it, as plain data, and the queue of waiting commands. -/

namespace Sys2Proof.Machine

/-- Why a step stops with a fault: the manual leaves no command of the table without an effect, so there is no
such reason and no command raises one. -/
inductive Fault where
  deriving DecidableEq, Repr

/-- Why a command is refused. -/
inductive Refusal where
  /-- The command has no meaning in the model yet; raised by its arm of `exec`. Safe. -/
  | notModelled (mnemonic : String)
  deriving DecidableEq, Repr

/-- Module states (R22, Table 0-6). -/
inductive Mode where
  | off | reset | cedar | run | held | safe | dormant
  deriving DecidableEq, Repr

/-- Pair roles (R23). -/
inductive Role where
  | solo | active | standby | syncing
  deriving DecidableEq, Repr

/-- Phase of the current tick (R50). `none`: no tick is in progress. -/
inductive Phase where
  | none | i | l | o
  deriving DecidableEq, Repr

/-! ## The tick -/

/-- A happening at the pins, or a trigger, that waits for the tick that begins at the next edge (R51, R54). Its operands are its command's. -/
inductive Late
  | eventTrigger (src at_ cyc : Nat)
  | encTransition (k : Fin 4) (a b z : Bool) (at_ : Nat)
  | encIndex (k : Fin 4) (at_ cyc : Nat)
  | encLineBreak (k : Fin 4) (line : Fin 3) (at_ : Nat)
  | encLineReturn (k : Fin 4) (line : Fin 3) (at_ : Nat)
  | serialSample (k : Fin 4) (start : Bool) (data : BitVec 40) (nE nW : Bool) (crc : BitVec 6) (at_ : Nat)
  | canFrameReceive (m : Fin 4) (f : CanFrame) (at_ cyc : Nat)
  | canFrameSent (m : Fin 4) (i : Fin 16) (at_ : Nat)
  | busError (m : Fin 4) (tec rec at_ : Nat)
  | busOffRecovered (m : Fin 4) (at_ : Nat)
  | rawLevelChange (i : Fin 32) (v : Bool) (at_ : Nat)
  | diFilterChange (i : Fin 32) (cyc : Nat)
  | wireBreak (i : Fin 24) (at_ : Nat)
  | wireBreakClear (i : Fin 24) (at_ : Nat)
  | outputOverload (i : Fin 32) (at_ : Nat)
  | openLoad (i : Fin 32) (at_ : Nat)
  | openLoadClear (i : Fin 32) (at_ : Nat)
  deriving DecidableEq, Repr

/-- Timebase and sequencer (R46, R49, R50, R52, R57). -/
structure Tick where
  /-- Timebase, 10 ns units since power-up (R46). -/
  now : Nat
  /-- Timebase of the first edge after the current period took effect. -/
  e0 : Nat
  /-- Edges produced since E0; the next edge lies at `e0 + k * 100 * t`. -/
  k : Nat
  /-- Tick number (R57). -/
  n : Nat
  /-- Timebase at the current edge. -/
  edgeTs : Nat
  /-- Period T in µs (R49). -/
  t : Nat
  phase : Phase
  /-- The sequencer produces edges. -/
  seqOn : Bool
  /-- Edge n + 1 is armed (R52). -/
  armed : Bool
  /-- What TICK_LO, TICK_HI, EDGE_TS_LO and EDGE_TS_HI show; they follow at the end of Phase I (R57). -/
  shownN : Nat
  shownTs : Nat
  /-- The current tick is void (R76): HELD follows at the next edge (R77). -/
  void_ : Bool
  /-- The tick before was void. -/
  prevVoid : Bool
  /-- Causes of MBX_IN0 for the next tick (R605). -/
  first : Bool
  newprog : Bool
  takeover : Bool
  edited : Bool
  forced : Bool
  /-- COLD of MBX_IN0: the last start was cold. -/
  lastCold : Bool
  /-- Program occurrences taken in this tick (R519). -/
  progOcc : Nat
  /-- A partner's heartbeat has already moved the next edge (R367, R397). -/
  aligned : Bool
  /-- Happenings at the pins, and triggers, whose instant lies at the next edge or after it: they wait for the tick that begins there (R51,
  R54), oldest first. -/
  late : List Late
  deriving DecidableEq, Repr

/-! ## Logic cores -/

/-- A register result in flight (R99, R136, R142). -/
inductive Res where
  | g (r : RegNo) (v : Word)
  | b (r : RegNo) (v : Bool)
  | acc (r : AccNo) (v : Acc)
  | accAdd (r : AccNo) (v : Acc)
  | s (r : SegNo) (d : Dword)
  | csrOr (m : Word)
  | csrSet (v : Word)
  deriving DecidableEq, Repr

/-- A result and the cycle at whose start it completes. -/
structure Flight where
  due : Nat
  res : Res
  deriving DecidableEq, Repr

/-- The control transfer that waits for its delay slot (R103, R105, R106). -/
inductive Delay where
  | none
  | jump (target : Word)
  /-- A return at link-stack depth 0 (R106); `at_` is the instant of the task end. -/
  | endTask (at_ : Nat)
  deriving DecidableEq, Repr

/-- One context of a logic core (R86, Table 3-1). -/
structure Ctx where
  g : Vector Word 32
  b : Vector Bool 32
  a : Vector Acc 4
  s : Vector Dword 16
  csr : Word
  pc : Word
  /-- Link stack, top first: return address and s1 (R105). -/
  link : List (Word × Dword)
  delay : Delay
  /-- Results in flight, by completion cycle and then issue order (R100). -/
  flight : List Flight
  deriving DecidableEq, Repr

/-- What a core is doing. -/
inductive CoreRun where
  /-- No task: the list has ended, or no tick runs tasks. -/
  | idle
  /-- A cyclic task or an event task runs. -/
  | run
  /-- A C1 fault was detected and the abandonment has not completed (R74). -/
  | aband
  /-- Stopped for the rest of the tick by a C2 fault (R74). -/
  | stopped
  deriving DecidableEq, Repr

/-- One event slot of a core (R65, R66). -/
structure SlotSt where
  pending : Bool
  /-- Triggers since the last release. -/
  count : Word
  /-- Timestamp of the first of them. -/
  ts : Nat
  /-- Releases in this tick. -/
  rel : Nat
  /-- Deferred to the next Phase L. -/
  held : Bool
  deriving DecidableEq, Repr

/-- A logic core (R59 to R68, R86, R113; system window Table 1-5). -/
structure Core where
  st : CoreRun
  task : Ctx
  evt : Ctx
  /-- Entry of the task list that runs or ran last, and event slot. -/
  pos : Nat
  slot : Nat
  /-- The event context is the current one (R67). -/
  inEvt : Bool
  /-- The event task interrupted a cyclic task. -/
  resume : Bool
  /-- Core cycle count x since the start of Phase L: the next issue cycle (R66). -/
  cyc : Nat
  /-- A C1 fault was raised in this tick, and a C2 (R74). -/
  c1 : Bool
  c2 : Bool
  /-- Cycle of the C1 detection while the abandonment lasts. -/
  abCyc : Nat
  /-- Instruction word issued last, and code of the last fault (R506). -/
  word : Word
  lastFault : Nat
  /-- End cycle of the last task or event task of this tick (R73), and the instant of that end (R76). -/
  used : Nat
  endTs : Nat
  tbHi : Word
  evtFlags : BitVec 8
  evtPend : BitVec 8
  mbxIn : Vector Word 16
  mbxOut : Vector Word 16
  /-- Stores to MBX_OUT not yet visible: issue cycle, word, value. -/
  mbxStq : List (Nat × Fin 16 × Word)
  /-- The executive's snapshot of MBX_OUT (R61). -/
  mbxSnap : Vector Word 16
  slots : Vector SlotSt 8
  /-- Force replay entries in use: entry number and creation number of the force (R169). -/
  replay : List (Nat × Nat)
  deriving DecidableEq, Repr

/-- A trap of an emulated opcode that waits for the service core or is being served (R75, R116): core, cycle of the trap, cost, and the
cycle in which its service begins. -/
structure SvTrap where
  core : CoreId
  at_ : Nat
  cost : Nat
  start : Nat
  deriving DecidableEq, Repr

/-- The service core in a tick (R75): the cycle in which it is free again after the services that have begun, and the traps whose service
has not begun yet, in their order of service. -/
structure Sv where
  free : Nat
  queue : List SvTrap
  deriving DecidableEq, Repr

/-- A store of a tick that is held until the cores' cycles have passed it (R35): cycle, core, address, bytes. -/
structure Store where
  cyc : Nat
  core : Nat
  addr : Nat
  bytes : List Byte
  deriving DecidableEq, Repr

/-- Memories of the cores and the shared SRAM (R36, R38, R111). -/
structure Memory where
  /-- Contents by physical address: X bank of core c at 16#0100_0000 + 16#2_0000 c, its Y bank 16#1_0000 above,
  its instruction banks at 16#0200_0000 + 16#4_0000 c, shared SRAM at 16#1000_0000. -/
  cells : List Host.Cell
  /-- Stores of the tick in progress (R35). -/
  stq : List Store
  /-- Active instruction bank of every core, exchanged under R178. -/
  bank : Vector Bool 8
  /-- Words with a latent single-bit or double-bit error, and words marked as failed, by physical address. -/
  single : List Nat
  double : List Nat
  failed : List Nat
  /-- Next line of the scrub (R37). -/
  scrub : Nat
  /-- Home lines changed since the dirty set closed (R192). -/
  dirty : List Nat
  /-- Corrected single-bit errors (R36). -/
  ceCnt : Nat
  deriving DecidableEq, Repr

/-! ## Programs -/

/-- PROGHDR (Table 5-2). -/
structure ProgHdr where
  period : Nat
  cores : Nat
  inBase : Nat
  inSize : Nat
  outBase : Nat
  outSize : Nat
  constBase : Nat
  constSize : Nat
  globBase : Nat
  globSize : Nat
  deriving DecidableEq, Repr

/-- Area directory entry (R149). -/
structure Area where
  code : Nat
  inst : Nat
  dir : Nat
  ofs : Nat
  len : Nat
  deriving DecidableEq, Repr

/-- Exchange directory entry (R150). -/
structure Xchg where
  base : Nat
  size : Nat
  writer : Nat
  readers : Nat
  deriving DecidableEq, Repr

/-- Cyclic entry, or event slot (Table 5-5): `ph` is PHASE or SOURCE, `dr` is DIVLOG or RATE. -/
structure TaskE where
  entry : Nat
  inst : Nat
  ph : Nat
  dr : Nat
  wcet : Nat
  deriving DecidableEq, Repr

/-- Task list of a core (Table 5-4). -/
structure TList where
  core : Nat
  tasks : List TaskE
  slots : List TaskE
  frcap : Nat
  evrec : Nat
  needMax : Nat
  s0 : Dword
  /-- Descriptors of s2 to s7. -/
  segs : List Dword
  deriving DecidableEq, Repr

/-- Symbol (Table 5-7). -/
structure Sym where
  symid : Dword
  ty : Nat
  cls : Nat
  flags : Nat
  addr : Nat
  core : Nat
  writers : Nat
  count : Nat
  stride : Nat
  nameOff : Nat
  deriving DecidableEq, Repr

/-- Migration map entry (Table 5-12). -/
structure MapE where
  kind : Nat
  srcCore : Nat
  dstCore : Nat
  src : Nat
  dst : Nat
  len : Nat
  deriving DecidableEq, Repr

/-- A run of initial contents: core field, core-visible address, bytes (R146). -/
structure InitRun where
  core : Nat
  addr : Nat
  bytes : List Byte
  deriving DecidableEq, Repr

/-- MIGRATE (R174). -/
structure Migrate where
  from_ : List Byte
  lines : Nat
  ibytes : Nat
  entries : List MapE
  deriving DecidableEq, Repr

/-- A cam of CAMS: index and coefficient words (R334). -/
structure Cam where
  nseg : Nat
  coef : List Word
  deriving DecidableEq, Repr

/-- An image as the executive holds it after reading its sections (R146, R555). -/
structure Image where
  hdr : ProgHdr
  areas : List Area
  xchgs : List Xchg
  lists : List TList
  syms : List Sym
  inits : List InitRun
  code : List (Nat × List Byte)
  migrate : Option Migrate
  progid : List Byte
  chgmax : Nat
  rollback : Nat
  words : List WriteItem
  linkSafe : List Byte
  /-- LOOPCFG (Table 21-5): NLOOP, and KEEP of every loop. -/
  nloop : Nat
  loopKeep : List Bool
  cams : List Cam
  hostKeys : List (List Byte)
  member : Nat
  peerProg : List Byte
  execMeas : List Byte
  m : List Byte
  deriving DecidableEq, Repr


/-! ## Event recorder -/

/-- An occurrence in the queue of R513. -/
structure Occ where
  ts : Nat
  code : Nat
  pay : List Byte
  burst : Bool
  prog : Bool
  deriving DecidableEq, Repr

/-- A record that stands in the ring: offset, SEQ, TYPE, LEN. -/
structure RecIdx where
  ofs : Nat
  seq : Nat
  code : Nat
  len : Nat
  deriving DecidableEq, Repr

/-- An open burst (R515): TYPE, the first bytes compared, the record's offset, the last match. -/
structure Burst where
  code : Nat
  key : List Byte
  ofs : Nat
  last : Nat
  deriving DecidableEq, Repr

/-- Event recorder (R512 to R519). -/
structure Evr where
  /-- The ring's bytes; unlisted bytes read 0. -/
  ring : List Host.Cell
  /-- Records of the ring, oldest first. -/
  recs : List RecIdx
  next : Nat
  seq : Nat
  queue : List Occ
  bursts : List Burst
  gap : Bool
  /-- The boot ROM's read of the ring has not ended (R516). -/
  scanning : Bool
  /-- TYPE of the newest record that the last read of the ring found (R244). -/
  newest : Nat
  /-- Window offset of every session (R517). -/
  cur : Vector Nat 8
  /-- TOGGLE of every core at its last task end (R518). -/
  toggle : Vector Bool 8
  deriving DecidableEq, Repr

/-! ## Watchdog and faults -/

/-- What the capture registers hold of one core (R495). -/
structure CoreCap where
  pc : Word
  word : Word
  ctx : Word
  csr : Word
  depth : Nat
  cyc : Nat
  lastFault : Nat
  deriving DecidableEq, Repr

/-- A fault handling (R496 to R498): class, code, unit (core mask, 0 for module and pair), detection. -/
structure Handling where
  cls : Nat
  code : Nat
  unit : Nat
  ts : Nat
  tick : Nat
  wdt : Nat
  /-- The cause arose in CEDAR or before the first RUN edge of a start (R500). -/
  early : Bool
  state : Nat
  role : Nat
  cores : List CoreCap
  deriving DecidableEq, Repr

/-- Restarts without a fault cause (R500), marked in the capture registers. -/
inductive RMark where
  | none
  | level2
  | fencing
  deriving DecidableEq, Repr

/-- Watchdog domain and fault handling (R489 to R508). -/
structure Wdg where
  running : Bool
  /-- Timebase of the last accepted service. -/
  base : Nat
  /-- Window that judges the interval from the next service on (R493). -/
  nextOpen : Nat
  nextClose : Nat
  /-- A fault is being handled. -/
  h : Option Handling
  /-- Cause of the level-1 restart that runs, for the second decision of R500. -/
  again : Option Handling
  fq : List QFault
  qlost : Nat
  /-- Handling that was abandoned (R498). -/
  abandon : Option QFault
  /-- A restart is due at the next Phase O (R497); the watchdog's own sequence is under way. -/
  restartDue : Bool
  mark : RMark
  deriving DecidableEq, Repr

/-! ## Retained store -/

/-- A record of the directory (Table 6-4) with the lines that its log holds. -/
inductive RecState where
  | open_ | sealed | applied
  deriving DecidableEq, Repr

/-- What a record holds: changed lines of memory, the journals and the executive's retained state. -/
structure RecBody where
  lines : List (Nat × List Byte)
  j : Journals
  x : ExecRet
  deriving DecidableEq, Repr

/-- A record directory entry (Table 6-4), the tags of its log lines (Table 6-5), and the body until its step 6. PAIRED is set where the module
mirrors the record to its standby, or has received it as a standby. DESIGN CHOICE (log 127). -/
structure Rec where
  tick : Nat
  first : Nat
  edgeTs : Nat
  start : Nat
  nlines : Nat
  progid8 : List Byte
  paired : Bool
  cold : Bool
  merged : Bool
  /-- Written with the seal. -/
  hcrc : Nat
  st : RecState
  tags : List Nat
  body : Option RecBody
  /-- A mirror record of the active module (R205), not a record of this module's own ticks. -/
  mirror : Bool
  /-- Phase O instant at which the commit began. -/
  began : Nat
  deriving DecidableEq, Repr

/-- What follows an acknowledgement. -/
inductive After where
  | none
  | restart
  deriving DecidableEq, Repr

/-- A result that waits for its tick to be durable (R210). -/
structure Ack where
  tick : Nat
  slot : Nat
  seq : Nat
  kind : Nat
  status : Nat
  data : List Byte
  after : After
  deriving DecidableEq, Repr

/-- Retained store (R184 to R213). -/
structure Ret where
  /-- Home image by home offset, and its parity lines, one for each stripe of 16 lines; unlisted bytes read 0 (Table 6-1, R189). -/
  home : List Host.Cell
  homePar : List Host.Cell
  /-- Failed lines: home line numbers; log lines; journal lines by copy (R188). -/
  badHome : List Nat
  badLog : List Nat
  badJourn : List (Nat × Nat)
  /-- MRAM words with a single-bit error, by offset. -/
  mramSingle : List Nat
  /-- Record directory, newest last, at most 256 entries (R198). -/
  dir : List Rec
  /-- Next line of the log ring. -/
  logNext : Nat
  /-- Journals and executive state as the executive works on them, and as the last APPLIED record holds them: the journals in copy A and in
  copy B (R190). -/
  j : Journals
  jd : Journals
  jb : Journals
  x : ExecRet
  xd : ExecRet
  /-- Commit overrun: a merge is pending since this tick (R203). -/
  mergeFrom : Option Nat
  durTick : Nat
  durTs : Nat
  /-- Half lines of the executive reserve used since the dirty set closed (R201). -/
  resv : Nat
  /-- Acknowledgements outstanding, in tick and arrival order. -/
  acks : List Ack
  deriving DecidableEq, Repr

/-! ## Pairing and joining -/

/-- A Rinkaset lane (R366, R392): symbol lock, state (0 NOSIG, 1 SILENT, 2 UP), own edges since the last intact
heartbeat, and one-way delay in ns. -/
structure Lane where
  lock : Bool
  st : Nat
  missed : Nat
  delay : Nat
  deriving DecidableEq, Repr

/-- Pairing unit, port S (R362 to R388). -/
structure Pair where
  /-- S-A, S-B, J-A, J-B. -/
  lanes : Vector Lane 4
  /-- Latest intact heartbeat, and the timebase of its receipt. -/
  peer : Option Hb
  rcvTs : Nat
  /-- Heartbeats sent: tick and timebase, newest first (R371). -/
  sent : List (Nat × Nat)
  /-- Lease expiry X; the gate has closed. -/
  leaseX : Option Nat
  gate : Bool
  /-- The partner is declared lost, and the tick of the declaration. -/
  lost : Bool
  lostTick : Nat
  unilateral : Bool
  /-- The Pearl was given up; it is not taken again before a new start (R375). -/
  gaveUp : Bool
  /-- Entitled to take the Pearl: cause of R391, and the earliest edge. -/
  entitled : Option (Nat × Nat)
  /-- Largest epoch of the partner's heartbeats since the start (R377). -/
  peerEpoch : Nat
  /-- Last downstream frame that passed its CRC in LISTEN, and its link (R372). -/
  witness : Option (Nat × Nat)
  /-- Lines of the mirror record being received: index, log tag (Table 6-5), bytes. -/
  rx : List (Nat × Nat × List Byte)
  /-- Mirror records sent and not confirmed: last tick, first tick and Phase O instant (R207, R210). -/
  unconf : List (Nat × Nat × Nat)
  /-- Resync: next line to send, or lines received; running. -/
  syncPos : Nat
  syncOn : Bool
  /-- Instant at which the last SYNC line was written (R383). -/
  syncEnd : Option Nat
  syncTicks : Nat
  /-- Records received whole that wait for the commit of the one before (R205). -/
  sealq : List Rec
  /-- RELEASE leaves when the last frame of the safe bursts has left (R375). -/
  relDue : Bool
  /-- Swap: tick s (R386), and the request that asked for it. -/
  swap : Option Nat
  swapReq : Option (Nat × Nat)
  /-- Exchange through the standby under way (R388). -/
  xpair : Bool
  /-- Last tick whose outputs this module has released, as RELEASE reports it (Table 12-1). -/
  outTick : Nat
  deriving DecidableEq, Repr

/-- Join over port J (R392 to R410). -/
structure Join where
  /-- J_ENABLE, J_POLICY, JX_LIM and QUAD as they stood at step 9 of the start: a later write acts at the next one (R396). -/
  on : Bool
  policy : Nat
  lim : Nat
  quad : Bool
  /-- This module is the J-MASTER (R395). -/
  master : Bool
  /-- J_STATE: 0 UNJOINED, 1 FORMING, 2 JOINED, 3 LOST. -/
  st : Nat
  /-- Latest intact JHB of the partner, and whether one arrived since the last own edge; edges without one. -/
  peer : Option Jhb
  got : Bool
  missed : Nat
  /-- Deviation of the last edge, ns (R397). -/
  align : Int
  /-- The master's edges of the last 16 heartbeats, newest first: its EDGE_TS, and the instant of that edge on this timebase (R397). -/
  hist : List (Nat × Nat)
  /-- A heartbeat with JOINED has left (R396). -/
  flagSent : Bool
  /-- Segments of the stream being received: number and data; its end packet: tick, length, CRC. -/
  rx : List (Nat × List Byte)
  rxTick : Nat
  rxEnd : Option (Nat × Nat × Nat)
  late : Nat
  /-- Outgoing area captured (R400). -/
  outCap : List Byte
  /-- First joined tick; none until this module has the master's number (R396). -/
  firstTick : Option Nat
  /-- Incoming data and header fields. -/
  inData : List Byte
  inTick : Nat
  stale : Bool
  /-- Entitlement in a quad (R408): since when, and the partner's. -/
  ent : Option Nat
  peerEnt : Option Nat
  qwait : Bool
  /-- Map completion of both members (R404). -/
  mapDone : Bool
  peerMapDone : Bool
  /-- SAFE, or a stop of outputs, is due at the next edge. -/
  safeDue : Bool
  stopDue : Bool
  deriving DecidableEq, Repr

/-! ## Field links -/

/-- A downstream frame that the link sent at an edge: TYPE, TSEQ, sections, and the edge. -/
structure LFrame where
  ty : Nat
  tseq : Nat
  n : Nat
  edge : Nat
  deriving DecidableEq, Repr

/-- An upstream frame as received: its bytes after USOF and before EOF, the arrival of the first symbol of each section, and the
instant at which it was complete. -/
structure UFrame where
  bytes : List Byte
  arr : List Nat
  done : Nat
  deriving DecidableEq, Repr

/-- What a link controller holds beside its LINK[k] words (R266 to R286). -/
structure LinkSt where
  last : Option LFrame
  up : Option UFrame
  /-- Delay measurements per head index, doubled, newest first, at most 16 (R269). -/
  hist : List (List Nat)
  /-- Consecutive misses per head index (R281); consecutive failed ticks (R278). -/
  miss : List Nat
  fail : Nat
  /-- Frames left of a safe burst, the instant of the next, and whether the link closes after it (R283). -/
  burst : Nat
  burstAt : Nat
  closing : Bool
  /-- RESTART bit of the output area at the last edge. -/
  restartPrev : Bool
  /-- Output area captured in Phase O (R266). -/
  buf : List Byte
  deriving DecidableEq, Repr

/-! ## Encoders -/

/-- A counted transition (R292, R301): timebase, kind (0 A rising, 1 A falling, 2 B rising, 3 B falling), count after it. -/
structure Trans where
  ts : Nat
  kind : Nat
  count : Int
  deriving DecidableEq, Repr

/-- An encoder port (R290 to R304). -/
structure EncPort where
  /-- Count: the 32-bit signed value of R294. -/
  count : Word
  /-- Counted transitions, newest first, with counts that do not wrap (R301). -/
  trans : List Trans
  homed : Bool
  countHome : Word
  /-- Filtered levels of A and B; Z found active at the last counted transition. -/
  a : Bool
  b : Bool
  zFound : Bool
  /-- Line breaks on A, B (data in a serial mode) and Z (R293). -/
  brkA : Bool
  brkB : Bool
  brkZ : Bool
  /-- Index: count, rising Z edge, and whether one came since the last edge. -/
  zpos : Word
  zts : Nat
  zseen : Bool
  /-- Timebase of the last counted transition or sample instant. -/
  lastTs : Nat
  /-- Instant of the last transition of A and of B, counted or not (R292). -/
  lastA : Option Nat
  lastB : Option Nat
  /-- Errors since the last edge: first kind (Table 9-3), and whether the angle port's tick had one. -/
  err : Nat
  /-- Sample instant of the request in progress (R297); good samples, newest first: instant and angle. -/
  req : Option Nat
  samples : List (Nat × Word)
  /-- Data of the last good sample; a good one came since the last edge; bad ones in a row. -/
  data : Nat
  good : Bool
  /-- nW reported since the last edge. -/
  warn : Bool
  coasted : Nat
  valid : Bool
  theta : Word
  omega : Word
  /-- RESTART as last captured, and a change from 0 to 1 that the next edge takes (R316). -/
  restart : Bool
  restartReq : Bool
  /-- Pin ENk_VSEL is tied to ENk_0V (R291). -/
  vsel24 : Bool
  deriving DecidableEq, Repr

/-- Encoder unit (R290 to R318). -/
structure Enc where
  /-- The unit runs and counts (R294). -/
  on : Bool
  ports : Vector EncPort 4
  /-- Sign of the angle port's last non-zero rate (R305); 0 none yet. -/
  sign : Int
  deriving DecidableEq, Repr

/-! ## Loop engine and tuning unit -/

/-- What the engine holds of a loop beside its retained record (R322, R323, R326, R358). -/
structure LoopRt where
  /-- Snapshot of the command fields (R323). -/
  sp : Word
  ff : Word
  cmd : Half
  /-- Result of the last update (Table 10-3). -/
  y : Word
  r : Word
  e : Word
  u : Word
  integ : Word
  rv : Word
  gf : Word
  flags : Nat
  seq : Half
  updated : Bool
  /-- A loss is in progress (R336): none until an update after a start or a takeover has judged it. -/
  loss : Option Bool
  /-- Supervision window (R358): updates so far, sum of squares, oscillations, last e, windows degraded in a row. -/
  supN : Nat
  supSum : Word
  supOsc : Nat
  supPrev : Option Word
  supBad : Nat
  /-- A baseline is wanted from the next window that begins; this window gives it. -/
  baseReq : Bool
  baseWin : Bool
  /-- A degradation asks for a tune run in this tick's Phase O (R359). -/
  retune : Bool
  deriving DecidableEq, Repr

/-- A tune run (R346 to R350). -/
structure TuneRun where
  loop : Nat
  /-- Slot of the session that started it, 8 after that session has closed; none for the module itself. -/
  owner : Option Nat
  /-- The loop has entered TUNING. -/
  entered : Bool
  /-- Updates made. -/
  j : Nat
  y0 : Word
  close0 : Bool
  g : Word
  lfsr : Nat
  w : Word
  /-- IDENT has begun; what a complete identification reports in Phase O (R347): words of TUNE[n] and their values. -/
  ident : Bool
  found : Option (List (Nat × Word))
  deriving DecidableEq, Repr

/-- Capture memory (R351, R352). -/
structure Cap where
  /-- 0 IDLE, 1 CAPTURING, 2 IDENTIFYING, 3 HOLDING. -/
  st : Nat
  loop : Nat
  owner : Option Nat
  sel : List Nat
  dec : Nat
  count : Nat
  /-- Due updates seen since the start. -/
  k : Nat
  /-- Samples of the four channels, newest first. -/
  data : List (List Word)
  deriving DecidableEq, Repr

/-- Loop engine and tuning unit. -/
structure LoopEng where
  /-- Loops still to be updated in this tick, and updates made in it (R322). -/
  due : List Nat
  done : Nat
  rt : Vector LoopRt 96
  run : Option TuneRun
  cap : Cap
  deriving DecidableEq, Repr

/-! ## Message buses -/

/-- A received frame and its timestamp. -/
structure RxFrame where
  ts : Nat
  f : CanFrame
  deriving DecidableEq, Repr

/-- A receive buffer (R418): the latest frame, and frames since the previous edge. -/
structure RxBuf where
  fr : Option RxFrame
  n : Nat
  deriving DecidableEq, Repr

/-- A high-priority entry (R420): frame, sequence number, and whether an event task of its slot was released since. -/
structure HpEntry where
  fr : RxFrame
  cnt : Nat
  taken : Bool
  deriving DecidableEq, Repr

/-- A frame entered for transmission (R425): buffer, window of a scheduled frame, cycle, contents as captured. -/
structure TxFrame where
  buf : Nat
  win : Option Nat
  cycle : Nat
  bytes : List Byte
  /-- The controller had begun to send it when a window began. -/
  begun : Bool
  deriving DecidableEq, Repr

/-- A controller (R414 to R430). -/
structure BusSt where
  /-- 0 on the bus as its counters say, 1 bus-off, 2 HALTED. -/
  off : Nat
  tec : Nat
  rerr : Nat
  /-- Edges since bus-off; recovery has begun; bus-off states in a row. -/
  offTicks : Nat
  recov : Bool
  row : Nat
  rxb : List RxBuf
  fifo : List RxFrame
  fifoLost : Nat
  /-- Entries A and B of the four high-priority slots, and the slots' sequence numbers. -/
  hp : List (Option HpEntry)
  hpSeq : List Nat
  /-- Buffers 0 to 15 as captured in the last Phase O, and as the present tick's windows use them. -/
  cap : List (List Byte)
  cur : List (List Byte)
  /-- SEND bits at the last capture; pending EVENT buffers with their contents. -/
  send : Option Nat
  evp : List (Nat × List Byte)
  entered : List TxFrame
  /-- Frames withdrawn but begun when the controller stopped: one of them completes (R236, R241). -/
  ending : List TxFrame
  txdone : Nat
  miss : Nat
  restart : Bool
  /-- First edge of the basic cycle, its number c, the tick in it, and the next window (R424); 33 before the first edge of an enabled controller. -/
  cycStart : Nat
  cycNo : Nat
  cycTick : Nat
  nextWin : Nat
  /-- The tick follows a void tick: no scheduled frame (R77). -/
  noSched : Bool
  deriving DecidableEq, Repr

/-! ## Digital I/O -/

/-- An input and its filter (R435, R436, R438, R439). -/
structure DiCh where
  raw : Bool
  /-- Latest transition of the raw level. -/
  stamp : Nat
  /-- Counter; filtered state. -/
  c : Nat
  f : Bool
  /-- The next sample sets the counter and the state. -/
  init : Bool
  brk : Bool
  deriving DecidableEq, Repr

/-- A change-of-state record (Table 15-1) and its instant. -/
structure CosRec where
  at_ : Nat
  ts : Nat
  ch : Nat
  level : Bool
  deriving DecidableEq, Repr

/-- An output (R442 to R449). -/
structure DoCh where
  /-- What rows 2 to 7 of Table 15-2 decided at the last edge; what the terminal is driven to, since when. -/
  dec : Bool
  rel : Bool
  relTs : Nat
  latched : Bool
  ovl : Bool
  /-- 0 none, 1 in the retry wait, 2 the wait is over, 3 a try runs. -/
  retry : Nat
  /-- End of the wait or of the try's hold; what is left of a wait that pauses. -/
  until_ : Nat
  left : Option Nat
  fails : Nat
  openLd : Bool
  deriving DecidableEq, Repr

/-- Digital I/O (R433 to R452). -/
structure Dio where
  /-- The input stages work (R434). -/
  on : Bool
  /-- Every sample at or before this instant has been taken. -/
  sampled : Nat
  di : Vector DiCh 32
  do_ : Vector DoCh 32
  cos : List CosRec
  cosLost : Nat
  /-- DO word captured in Phase O; QCLR at the last capture. -/
  cap : Word
  qclr : Option Word
  /-- Instants of the last change of M1 and M2. -/
  m1Ts : Nat
  m2Ts : Nat
  deriving DecidableEq, Repr

/-! ## Status panel -/

/-- What the panel driver holds beside its journal (R456 to R468). -/
structure Panel where
  /-- Rails: 0 off, 1 starting, 2 on, 3 discharging; a start waits for the end of a discharge (R459). -/
  rails : Nat
  wantStart : Bool
  /-- FAULT (R456). -/
  fault : Bool
  /-- Start of the line in progress. -/
  lineAt : Option Nat
  /-- The region's first line waits for this tick to be durable (R463). -/
  startTick : Nat
  /-- A rewrite under R467 is in progress. -/
  recov : Bool
  /-- Since when no line has been due. -/
  idleTs : Nat
  /-- REQ values at the previous capture. -/
  prevReq : List Nat
  /-- Blinking regions and the instant of their next phase change. -/
  blink : List (Nat × Nat)
  deriving DecidableEq, Repr

/-! ## Clock and calendar -/

/-- A civil time (R471). -/
structure Civil where
  sub : Nat
  sec : Nat
  min_ : Nat
  hour : Nat
  day : Nat
  month : Nat
  year : Nat
  deriving DecidableEq, Repr

/-- Clock domain (R471 to R484). -/
structure Rtc where
  /-- The second that the calendar is in; its subseconds come with the commands. -/
  t : Civil
  wday : Nat
  /-- Timebase at the last second boundary. -/
  secTs : Nat
  /-- The domain is fed from backup. -/
  backup : Bool
  /-- First latched match of each alarm while L+ was absent (R479). -/
  latched : Vector (Option Civil) 2
  /-- Shadow of each session slot: instant of the freezing read, and the ten time fields (R475). -/
  shadow : Vector (Option (Nat × List Word)) 8
  deriving DecidableEq, Repr

/-! ## Host interface -/

/-- A response of a session that waits for its turn (R537): sequence number, kind, and once it is released, status and body. -/
structure Resp where
  seq : Nat
  kind : Nat
  ip : Word
  port : Half
  nonce : Dword
  key : List Byte
  res : Option (Nat × List Byte)
  deriving DecidableEq, Repr

/-- What is volatile of a session slot (R535, R537, R545). -/
structure Sess where
  /-- Execution number x. -/
  x : Nat
  /-- Requests held, by sequence number. -/
  held : List (Nat × ReqHdr × Req)
  ip : Word
  port : Half
  /-- Instant at which a request last became executable. -/
  idleTs : Nat
  /-- Failed AUTH requests. -/
  fails : Nat
  /-- Results of read-only requests: sequence number, kind, status and body. -/
  store : List (Nat × Nat × Nat × List Byte)
  /-- Host random, module random and the HELLO_REPLY. -/
  hrand : List Byte
  mrand : List Byte
  reply : List Byte
  /-- Responses in sequence order. -/
  resp : List Resp
  deriving DecidableEq, Repr

/-- Host interface (R522 to R547). -/
structure HostSt where
  sess : Vector Sess 8
  /-- Executable requests that wait for Phase O, in the order in which they became executable (R536): slot, sequence number. -/
  ready : List (Nat × Nat × Req)
  /-- Requests under way whose result is not written yet: slot, sequence number, kind. -/
  jobs : List (Nat × Nat × Nat)
  /-- Results of such requests that wait for the executive reserve of a later tick (R201): slot, sequence number, status, data, what follows. -/
  done : List (Nat × Nat × Nat × List Byte × After)
  /-- HELLO messages that wait for it: address, port, body. -/
  hellos : List (Word × Half × List Byte)
  /-- Instants of failed AUTH requests, and the end of a lockout (R531). -/
  authFails : List Nat
  lockEnd : Option Nat
  /-- Announcements of the shared address that remain, and the instant of the next (R525). -/
  garp : Nat
  garpAt : Nat
  /-- Network configuration in effect: address, mask, gateway; a written one waits for its response (R524). -/
  ip : Word
  mask : Word
  gw : Word
  netWait : Option (Nat × Nat)
  netDue : Bool
  deriving DecidableEq, Repr

/-! ## Images, update and trust -/

/-- A carrier operation under way (R564 to R568, R570). -/
inductive CarOp where
  | none
  /-- A slot sector is being erased. -/
  | erase
  /-- A block: carrier offset and data; 0 waits for its record, 1 programming, 2 read back: matched or not, and the result waits for Phase O. -/
  | write (slot seq : Nat) (ofs : Nat) (data : List Byte) (st : Nat) (ok : Bool)
  /-- Verification of a slot for a request. -/
  | verify (slot seq : Nat)
  /-- An activation write: slot, mode, copy, SEQ; 0 waits for durability, 1 being written, 2 read back. `req` is the request of ACTIVATE. -/
  | activate (req : Option (Nat × Nat)) (slot mode : Nat) (mig : Bool) (st : Nat)
  deriving DecidableEq, Repr

/-- Updater and boot records (R550 to R571). -/
structure Upd where
  /-- The carrier in X9. -/
  car : Carrier
  op : CarOp
  /-- Requests of the updater that wait for the operation under way: slot, sequence number, request. -/
  waiting : List (Nat × Nat × Req)
  /-- Slot that the chosen boot record names, its SEQ and the copy chosen; slot of the running executive; result of the last verification. -/
  active : Nat
  brSeq : Nat
  copy : Nat
  booted : Nat
  vresult : Nat
  /-- Recovery of an interrupted operation is to be made or under way (R568). -/
  recovering : Bool
  /-- Tick whose durability the step under way waits for. -/
  waitTick : Nat
  /-- Instant at which an update request of the holder last became executable. -/
  idleTs : Nat
  deriving DecidableEq, Repr

/-- An owner key slot (R557). -/
structure Owner where
  key : List Byte
  enrolled : Bool
  revoked : Bool
  deriving DecidableEq, Repr

/-- One-time-programmable storage and what the trust unit holds of the running image (R557 to R561, R573). -/
structure Trust where
  owners : Vector Owner 4
  rollback : Nat
  execMeas : List Byte
  imgM : List Byte
  /-- Owner slot whose key signed the running container. -/
  signer : Option Nat
  deriving DecidableEq, Repr

/-- An on-line exchange (R176 to R181, R387, R388). -/
structure Exch where
  /-- EXCH_STATE. -/
  st : Nat
  slot : Nat
  /-- The new image; the request; mode PAIR. -/
  image : Option Image
  req : Option (Nat × Nat)
  pair : Bool
  /-- Tick b of the exchange record, tick n, and migration ticks made. -/
  tickB : Nat
  tickN : Nat
  ticks : Nat
  /-- The preload and its measurement check are complete; the activation write has been read back. -/
  loaded : Bool
  written : Bool
  deriving DecidableEq, Repr

/-! ## Supplies, start and power loss -/

/-- Where a start stands (Table 7-4). -/
inductive StartStep where
  /-- No start is in progress: RUN, HELD, SAFE, DORMANT, OFF. -/
  | none
  /-- RESET, before release: the bank charges, or a restart waits for release. -/
  | reset
  /-- Released; the boot-record copies are to be read (step 3). -/
  | boot
  /-- The executive is to be verified (step 4) or re-measured (kind 3). -/
  | exec
  /-- The program is to be read and admitted (steps 6 and 7). -/
  | program
  /-- Recovery is to be made (step 8). -/
  | recover
  /-- The role is to be taken (step 9). -/
  | role
  /-- Steps 1 to 9 are complete; the first RUN edge is the next Cedar edge after a Cedar service. -/
  | ready
  /-- A Cedar hold (R234). -/
  | hold
  deriving DecidableEq, Repr

/-- Start path (R225 to R235, R500). -/
structure Start where
  step : StartStep
  /-- Kind of Table 7-3; 0 in RESET where the ladder decides it at the release. -/
  kind : Nat
  /-- Timebase of the first step (START_TIME). -/
  began : Nat
  /-- Provider of Cedar service: 1 boot ROM, 2 executive; 0 outside CEDAR. -/
  source : Nat
  reason : Nat
  /-- A Cedar service has been made since step 9 completed (step 10). -/
  served : Bool
  /-- Edge timestamp gap by which timers are rebased on entry to RUN (R162). -/
  gap : Option Nat
  /-- Instant at which step 9 began (R369, R396). -/
  roleTs : Nat
  /-- Reason of the cold start under way: every directory entry is OPEN, and the cold record is not written yet (R229). -/
  cold : Option Nat
  deriving DecidableEq, Repr

/-- Supplies (R220 to R224, R236 to R243). -/
structure Power where
  /-- L+ is present, since this instant. -/
  present : Bool
  since : Nat
  /-- M1 and M2 are present. -/
  m1 : Bool
  m2 : Bool
  /-- Power-fail sequence: instant of detection, and whether it began in RUN, HELD or SAFE (R241, R242). -/
  pf : Option (Nat × Bool)
  /-- DORMANT entry: the tick n of the request, slot and sequence number; the sequencer has stopped (R236). -/
  dorm : Option (Nat × Nat × Nat)
  dormStopped : Bool
  /-- Wake sources that have triggered, and the first one's instant (R238). -/
  wake : Nat
  wakeTs : Nat
  deriving DecidableEq, Repr

/-! ## What leaves the module -/

/-- A symbol of a field link (Table 8-1): idle K28.5, start of a downstream frame K27.7, start of an upstream frame K30.7, end of a frame K29.7, or
a data byte. -/
inductive LinkSym where
  | idle | sof | usof | eof
  | data (b : Byte)
  deriving DecidableEq, Repr

/-- What a transmitter of a field link drives between frames (R250). -/
inductive LinkLine where
  /-- K28.5 without a break. -/
  | idle
  /-- Silent: no symbols, the pair is electrically idle. -/
  | silent
  deriving DecidableEq, Repr

/-- Something that left the module: a frame on a field link, a packet on a Rinkaset lane, a frame on a
message bus, a BHP message, another Ethernet frame. -/
inductive Out where
  | link (k : Nat) (ts : Nat) (syms : List LinkSym)
  | lane (l : Nat) (ts : Nat) (bytes : List Byte)
  /-- A frame on a bus; `esi` is the bit of an FD frame. -/
  | bus (m : Nat) (ts : Nat) (idw : Word) (esi : Bool) (data : List Byte)
  /-- A line of the panel: plane, common, start, VC, VSEL, VS, TRST, TSEL, TEVO, and the anti-phase duty of every segment. -/
  | panel (p c : Nat) (ts : Nat) (words : List Nat) (duty : List Nat)
  /-- The value that a read of a parameter word returns to a session slot: word address and value. -/
  | value (slot : Nat) (key : Nat) (v : Word)
  /-- The journals and the executive's retained state, which go with a SEAL or the last SYNC line (Assumption 13). -/
  | retState (l : Nat) (ts : Nat) (st : RetState)
  /-- A BHP message in a UDP datagram: address, port, bytes. -/
  | bhp (ts : Nat) (ip : Word) (port : Nat) (bytes : List Byte)
  /-- Another frame of the Ethernet ports: what it is, and its address. -/
  | eth (ts : Nat) (kind : Nat) (ip : Word) (bytes : List Byte)
  deriving DecidableEq, Repr

/-! ## The module -/

/-- The state of the module. -/
structure State where
  /-- Commands that wait, first in, first out. -/
  pending : List Instr
  tick : Tick
  mode : Mode
  role : Role
  /-- Parameter words that differ from their reset value, by ascending address. -/
  par : List (Nat × Word)
  cores : Vector Core 8
  sv : Sv
  mem : Memory
  /-- The running image; none before step 7 of a start. -/
  prog : Option Image
  ret : Ret
  power : Power
  start : Start
  links : Vector LinkSt 16
  enc : Enc
  loop : LoopEng
  bus : Vector BusSt 4
  dio : Dio
  panel : Panel
  rtc : Rtc
  pair : Pair
  join : Join
  evr : Evr
  wdg : Wdg
  host : HostSt
  upd : Upd
  trust : Trust
  exch : Exch
  /-- What has left the module, newest first. The MODEL's own field (Assumption 8). -/
  out : List Out
  /-- Counter of the free values taken. The MODEL's own field (Assumption 3). -/
  free : Nat
  deriving DecidableEq, Repr

end Sys2Proof.Machine

namespace Sys2Proof.Machine

/-! ## Reset: the module as delivered, before its first L+ (Assumption 14) -/

/-- An empty context of a core (Table 3-11). -/
def Ctx.reset : Ctx :=
  { g := Vector.replicate 32 0, b := Vector.replicate 32 false, a := Vector.replicate 4 0, s := Vector.replicate 16 0,
    csr := 0, pc := 0, link := [], delay := .none, flight := [] }

/-- A core that runs nothing. -/
def Core.reset : Core :=
  { st := .idle, task := Ctx.reset, evt := Ctx.reset, pos := 0, slot := 0, inEvt := false, resume := false, cyc := 0, c1 := false, c2 := false,
    abCyc := 0, word := 0, lastFault := 0, used := 0, endTs := 0, tbHi := 0, evtFlags := 0, evtPend := 0, mbxIn := Vector.replicate 16 0,
    mbxOut := Vector.replicate 16 0, mbxStq := [], mbxSnap := Vector.replicate 16 0,
    slots := Vector.replicate 8 { pending := false, count := 0, ts := 0, rel := 0, held := false }, replay := [] }

/-- A free session header. -/
def SessHdr.reset : SessHdr := { nonce := 0, next := 0, open_ := false, priv := false, hkey := 0xFF, key := [], hrand8 := [] }

/-- The journals as delivered. -/
def Journals.reset : Journals :=
  { hdrs := Vector.replicate 8 SessHdr.reset, results := [], ip := 0, mask := 0xFFFFFF00, gw := 0, hold := false, cold := false, forces := [],
    forceNum := 1, evid := List.replicate 16 { bytes := [] }, evNext := 0, evSeq := 1,
    esc := { powerup := 0, safe := false, safeCause := 0, next := 0, clearPu := 0, clearTs := 0, entries := List.replicate 30 none },
    car := { state := 0, slot := 0xFF, holder := 0xFF, opkind := 0, length := 0, erasedTo := 0, opsect := 0, opofs := 0, oplen := 0, scratch := false,
             prot := false, vmeas := [] },
    exr := none,
    panel := { intended := [], pendImg := [], queue := [], runR := none, runReq := 0, runAlt := false, line := 0, intr := false, phases := 0,
               req := List.replicate 16 0, done := List.replicate 16 0 } }

/-- The executive's retained state as delivered. -/
def ExecRet.reset : ExecRet :=
  { edits := [], changes := [], mapEntry := 0, mapOfs := 0, epoch := 0, incomplete := false, swapReq := none,
    loops := Vector.replicate 96 { i := 0, yp := 0, d := 0, p := 0, v := 0, a := 0, uf := 0, st := 0 }, words := [] }

/-- A session slot without a session. -/
def Sess.reset : Sess :=
  { x := 0, held := [], ip := 0, port := 0, idleTs := 0, fails := 0, store := [], hrand := [], mrand := [], reply := [], resp := [] }

/-- The module before its first L+: every register at the value the manual gives, or at the one a log entry names. -/
def State.reset : State :=
  { pending := []
    tick := { now := 0, e0 := 0, k := 0, n := 0, edgeTs := 0, t := 250, phase := .none, seqOn := false, armed := false, shownN := 0, shownTs := 0,
              void_ := false, prevVoid := false, first := false, newprog := false, takeover := false, edited := false, forced := false,
              lastCold := false, progOcc := 0, aligned := false, late := [] }
    mode := .off
    role := .solo
    par := []
    cores := Vector.replicate 8 Core.reset
    sv := { free := 0, queue := [] }
    mem := { cells := [], stq := [], bank := Vector.replicate 8 false, single := [], double := [], failed := [], scrub := 0, dirty := [], ceCnt := 0 }
    prog := none
    ret := { home := [], homePar := [], badHome := [], badLog := [], badJourn := [], mramSingle := [], dir := [], logNext := 0, j := Journals.reset,
             jd := Journals.reset, jb := Journals.reset, x := ExecRet.reset, xd := ExecRet.reset, mergeFrom := none, durTick := 0, durTs := 0, resv := 0,
             acks := [] }
    power := { present := false, since := 0, m1 := false, m2 := false, pf := none, dorm := none, dormStopped := false,
               wake := 0, wakeTs := 0 }
    start := { step := .none, kind := 1, began := 0, source := 0, reason := 0, served := false, gap := none, roleTs := 0, cold := none }
    links := Vector.replicate 16 { last := none, up := none, hist := [], miss := [], fail := 0, burst := 0, burstAt := 0, closing := false,
                                   restartPrev := false, buf := [] }
    enc := { on := false
             ports := Vector.replicate 4
               { count := 0, trans := [], homed := false, countHome := 0, a := false, b := false, zFound := false, brkA := false, brkB := false,
                 brkZ := false, zpos := 0, zts := 0, zseen := false, lastTs := 0, lastA := none, lastB := none, err := 0, req := none, samples := [], data := 0, good := false,
                 warn := false, coasted := 0, valid := false, theta := 0, omega := 0, restart := false, restartReq := false, vsel24 := false }
             sign := 0 }
    loop := { due := [], done := 0
              rt := Vector.replicate 96
                { sp := 0, ff := 0, cmd := 0, y := 0, r := 0, e := 0, u := 0, integ := 0, rv := 0, gf := 0x3F800000, flags := 0, seq := 0,
                  updated := false, loss := none, supN := 0, supSum := 0, supOsc := 0, supPrev := none, supBad := 0, baseReq := false, baseWin := false,
                  retune := false }
              run := none
              cap := { st := 0, loop := 0xFF, owner := none, sel := [], dec := 1, count := 0, k := 0, data := [] } }
    bus := Vector.replicate 4
      { off := 0, tec := 0, rerr := 0, offTicks := 0, recov := false, row := 0, rxb := List.replicate 32 { fr := none, n := 0 }, fifo := [],
        fifoLost := 0, hp := List.replicate 8 none, hpSeq := List.replicate 4 0, cap := [], cur := [], send := none, evp := [], entered := [],
        ending := [], txdone := 0, miss := 0, restart := false, cycStart := 0, cycNo := 0, cycTick := 0, nextWin := 33, noSched := false }
    dio := { on := false, sampled := 0
             di := Vector.replicate 32 { raw := false, stamp := 0, c := 0, f := false, init := true, brk := false }
             do_ := Vector.replicate 32
               { dec := false, rel := false, relTs := 0, latched := false, ovl := false, retry := 0, until_ := 0, left := none, fails := 0,
                 openLd := false }
             cos := [], cosLost := 0, cap := 0, qclr := none, m1Ts := 0, m2Ts := 0 }
    panel := { rails := 0, wantStart := false, fault := false, lineAt := none, startTick := 0, recov := false, idleTs := 0,
               prevReq := List.replicate 16 0, blink := [] }
    rtc := { t := { sub := 0, sec := 0, min_ := 0, hour := 0, day := 1, month := 1, year := 2000 }, wday := 5, secTs := 0, backup := true,
             latched := #v[none, none], shadow := Vector.replicate 8 none }
    pair := { lanes := Vector.replicate 4 { lock := false, st := 0, missed := 0, delay := 0 }, peer := none, rcvTs := 0, sent := [], leaseX := none,
              gate := false, lost := false, lostTick := 0, unilateral := false, gaveUp := false, entitled := none, peerEpoch := 0, witness := none, rx := [],
              unconf := [], syncPos := 0, syncOn := false, syncEnd := none, syncTicks := 0, sealq := [], relDue := false, swap := none, swapReq := none, xpair := false, outTick := 0 }
    join := { on := false, policy := 0, lim := 3, quad := false, master := false, st := 0, peer := none, got := false, missed := 0, align := 0, hist := [], flagSent := false, rx := [], rxTick := 0, rxEnd := none, late := 0,
              outCap := [], firstTick := none, inData := [], inTick := 0, stale := false, ent := none, peerEnt := none, qwait := false, mapDone := false,
              peerMapDone := false, safeDue := false, stopDue := false }
    evr := { ring := [], recs := [], next := 0, seq := 1, queue := [], bursts := [], gap := false, scanning := false, newest := 0,
             cur := Vector.replicate 8 0, toggle := Vector.replicate 8 false }
    wdg := { running := false, base := 0, nextOpen := 200, nextClose := 300, h := none, again := none, fq := [], qlost := 0, abandon := none, restartDue := false,
             mark := .none }
    host := { sess := Vector.replicate 8 Sess.reset, ready := [], jobs := [], done := [], hellos := [], authFails := [], lockEnd := none, garp := 0, garpAt := 0, ip := 0,
              mask := 0xFFFFFF00, gw := 0, netWait := none, netDue := false }
    upd := { car := { mib := 0, cells := [] }, op := .none, waiting := [], active := 0xFF, brSeq := 0, copy := 0, booted := 0xFF, vresult := 0,
             recovering := false, waitTick := 0, idleTs := 0 }
    trust := { owners := Vector.ofFn fun (i : Fin 4) => { key := (Config.otpOwners i).1, enrolled := (Config.otpOwners i).2.1, revoked := (Config.otpOwners i).2.2 }, rollback := Config.otpRollback, execMeas := [], imgM := [],
               signer := none }
    exch := { st := 0, slot := 0xFF, image := none, req := none, pair := false, tickB := 0, tickN := 0, ticks := 0, loaded := false, written := false }
    out := []
    free := 0 }

end Sys2Proof.Machine
end

