-- ==== Sys2Proof/Machine/Ops.lean ====
section
/-! DEFINITION. The shared operations over memory, parameter words, events and faults. -/

namespace Sys2Proof.Machine

/-! ## Byte stores in canonical form -/

/-- The byte at an address; `d` where nothing is listed. -/
def cellGet (d : Byte) : List Host.Cell → Nat → Byte
  | [], _ => d
  | (a, v) :: r, x => if a = x then v else cellGet d r x

/-- Write one byte, keeping the addresses strictly rising and no entry equal to `d`. -/
def cellSet (d : Byte) : List Host.Cell → Nat → Byte → List Host.Cell
  | [], x, v => if v = d then [] else [(x, v)]
  | (a, w) :: r, x, v =>
    if x < a then (if v = d then (a, w) :: r else (x, v) :: (a, w) :: r)
    else if x = a then (if v = d then r else (x, v) :: r)
    else (a, w) :: cellSet d r x v

/-- Every address of a list lies above `lo`, and they rise strictly. -/
def cellsRise (d : Byte) : Nat → List Host.Cell → Bool
  | _, [] => true
  | lo, (a, v) :: r => decide (lo ≤ a) && decide (v ≠ d) && cellsRise d (a + 1) r

/-- The canonical form of a byte store. -/
def cellsWf (d : Byte) (m : List Host.Cell) : Bool := cellsRise d 0 m

/-- `n` bytes from an address. -/
def cellBytes (d : Byte) (m : List Host.Cell) (a n : Nat) : List Byte := (List.range n).map fun i => cellGet d m (a + i)

/-- Write bytes from an address on. -/
def cellWrite (d : Byte) (m : List Host.Cell) (a : Nat) : List Byte → List Host.Cell
  | [] => m
  | b :: r => cellWrite d (cellSet d m a b) (a + 1) r

/-- The entries at addresses that satisfy a test. -/
def cellFilter (p : Nat → Bool) (m : List Host.Cell) : List Host.Cell := m.filter fun c => p c.1

/-! ## Parameter words -/

/-- Value listed for a key. -/
def kvGet : List (Nat × Word) → Nat → Option Word
  | [], _ => none
  | (a, v) :: r, k => if a = k then some v else kvGet r k

/-- List a value; `d` is what an unlisted key reads as. -/
def kvSet (d : Word) : List (Nat × Word) → Nat → Word → List (Nat × Word)
  | [], k, v => if v = d then [] else [(k, v)]
  | (a, w) :: r, k, v =>
    if k < a then (if v = d then (a, w) :: r else (k, v) :: (a, w) :: r)
    else if k = a then (if v = d then r else (k, v) :: r)
    else (a, w) :: kvSet d r k v

/-- The word is held in the executive's retained state: configuration and proposal of a loop (R341, R360), WAKE_CTRL (R246). -/
def isRetWord (k : Nat) : Bool :=
  let o := (k % 65536 - 0x100) % 0x40
  decide (k = K.POWER_WAKE_CTRL) ||
    (decide (0x100 ≤ k % 65536) &&
      ((decide (k / 65536 = 0x600) && decide (0x02 ≤ o) && decide (o ≤ 0x19)) ||
       (decide (k / 65536 = 0x700) && (decide (o ≤ 0x24) || (decide (0x30 ≤ o) && decide (o ≤ 0x34))))))

/-- A parameter word as it stands. -/
def rw (s : State) (k : Nat) : Word := (kvGet (if isRetWord k then s.ret.x.words else s.par) k).getD (resetWord k)
/-- The same as a number. -/
def rn (s : State) (k : Nat) : Nat := (rw s k).toNat
/-- One bit of a parameter word. -/
def rb (s : State) (k i : Nat) : Bool := (rw s k).getLsbD i
/-- Set a parameter word. -/
def sw (s : State) (k : Nat) (v : Word) : State :=
  if isRetWord k then { s with ret := { s.ret with x := { s.ret.x with words := kvSet (resetWord k) s.ret.x.words k v } } }
  else { s with par := kvSet (resetWord k) s.par k v }
/-- Set a parameter word to a number. -/
def sn (s : State) (k v : Nat) : State := sw s k (BitVec.ofNat 32 v)
/-- Set bits of a parameter word (a sticky bit). -/
def orw (s : State) (k : Nat) (m : Word) : State := sw s k (rw s k ||| m)
/-- Clear bits of a parameter word. -/
def clrw (s : State) (k : Nat) (m : Word) : State := sw s k (rw s k &&& ~~~m)
/-- Set or clear one bit of a parameter word. -/
def putBit (s : State) (k i : Nat) (v : Bool) : State := sw s k (setBit (rw s k) i v)
/-- Count, saturating at 16#FFFF_FFFF (R17). -/
def bump (s : State) (k : Nat) (n : Nat := 1) : State := sw s k (satInc (rw s k) n)
/-- Raise a word to at least a number. -/
def maxw (s : State) (k v : Nat) : State := if rn s k < v then sn s k (min v 0xFFFFFFFF) else s

/-- A rejected configuration write (R16, R17): CFGREJ and CFGREJ_CNT of the block. -/
def cfgRej (s : State) (blk : Nat) : State :=
  bump (orw s (blk * 65536 + 0xE) 1) (blk * 65536 + 0xF)

/-! ## Time -/

/-- The instant moves on to a reported one, never back. -/
def setNow (s : State) (t : Nat) : State := { s with tick := { s.tick with now := max s.tick.now t } }
/-- Timebase (R46). -/
abbrev State.now (s : State) : Nat := s.tick.now

/-- SYS.STATE coding of Table 7-10; 1 RESET and 0 OFF appear in no word. -/
def modeCode : Mode → Nat
  | .off => 0 | .reset => 1 | .cedar => 2 | .run => 3 | .held => 4 | .safe => 5 | .dormant => 6
/-- PAIR.ROLE coding. -/
def roleCode : Role → Nat
  | .solo => 0 | .active => 1 | .standby => 2 | .syncing => 3
/-- The role that the module reports: SOLO in CEDAR, also where step 9 has chosen another (R233). -/
def shownRole (s : State) : Role := if s.mode = .cedar then .solo else s.role
/-- RUN, HELD or SAFE. -/
def ticking (m : Mode) : Bool := m = .run || m = .held || m = .safe
/-- The module drives the field: role SOLO or ACTIVE. -/
def drives (r : Role) : Bool := r = .solo || r = .active

/-! ## Events (R513, R604) -/

/-- A payload field of 4 bytes. -/
def p4 (v : Nat) : List Byte := leBytes 4 v
/-- A payload field of 8 bytes. -/
def p8 (v : Nat) : List Byte := leBytes 8 v

/-- An occurrence enters the queue of 64; one that finds it full is abandoned under R499. -/
def pushOcc (s : State) (o : Occ) : State :=
  if s.evr.queue.length < 64 then { s with evr := { s.evr with queue := s.evr.queue ++ [o] } }
  else { bump s K.WDG_REC_FLT_CNT with evr := { s.evr with gap := true } }

/-- An event that is recorded at each occurrence. -/
def ev (s : State) (code : Nat) (pay : List Byte) : State :=
  pushOcc s { ts := s.now, code := code, pay := pay, burst := false, prog := false }
/-- An event that is recorded once per burst (R515). -/
def evb (s : State) (code : Nat) (pay : List Byte) : State :=
  pushOcc s { ts := s.now, code := code, pay := pay, burst := true, prog := false }

/-- A rejection under R16 is recorded with the block, the word and the slot, 16#FF where no slot wrote it (R543). -/
def rejectEvent (s : State) (k slot : Nat) : State := evb s 0xC010 (p4 (k / 65536) ++ p4 (k % 65536) ++ p4 slot)

/-- A write of word `k` outside a WRITE's items: a rejection is recorded. -/
def written (k : Nat) (q : State × Bool) : State := if q.2 then q.1 else rejectEvent q.1 k 0xFF

/-- An event with a field whose coding the manual does not give: a free value stands in it (Assumption 3). -/
def evFree (s : State) (code : Nat) (pre post : List Byte) : State :=
  ev { s with free := s.free + 1 } code (pre ++ leBytes 4 (Config.fresh64 s.free).toNat ++ post)

/-- Something leaves the module. -/
def emit (s : State) (o : Out) : State := { s with out := o :: s.out }

/-! ## Cores -/

/-- The context in which a core issues (R67). -/
def Core.ctx (k : Core) : Ctx := if k.inEvt then k.evt else k.task
/-- Replace that context. -/
def Core.setCtx (k : Core) (x : Ctx) : Core := if k.inEvt then { k with evt := x } else { k with task := x }
/-- Update one core. -/
def State.updCore (s : State) (c : CoreId) (f : Core → Core) : State :=
  { s with cores := s.cores.set c (f s.cores[c]) c.isLt }
/-- RCTX as R141 gives it: bit 31 event context, bits [5:0] entry or slot. -/
def Core.rctx (k : Core) : Word :=
  if k.inEvt then 0x80000000 ||| BitVec.ofNat 32 k.slot else BitVec.ofNat 32 k.pos
/-- What is captured of a core (R495, R506). -/
def Core.capture (k : Core) : CoreCap :=
  let x := k.ctx
  { pc := x.pc, word := k.word, ctx := k.rctx, csr := x.csr, depth := x.link.length, cyc := k.cyc, lastFault := k.lastFault }

/-- All eight cores. -/
def coreIds : List CoreId := [0, 1, 2, 3, 4, 5, 6, 7]

/-! ## Fault classes (R496 to R499) -/

/-- The instant lies in CEDAR, or in a start before its first RUN edge (R500). -/
def earlyCause (s : State) : Bool := !(ticking s.mode)

/-- A handling begins. -/
def beginHandling (s : State) (cls code unit wdt : Nat) : State :=
  { s with wdg := { s.wdg with
      h := some { cls := cls, code := code, unit := unit, ts := s.now, tick := s.tick.n, wdt := wdt, early := earlyCause s,
                  state := modeCode s.mode, role := roleCode (shownRole s), cores := coreIds.map fun c => s.cores[c].capture }
      restartDue := s.wdg.restartDue || (decide (2 ≤ cls) && earlyCause s) } }

/-- A queued fault; a full queue of 16 loses it (R498). -/
def queueFault (s : State) (cls code unit : Nat) : State :=
  if s.wdg.fq.length < 16 then
    { s with wdg := { s.wdg with fq := s.wdg.fq ++ [{ code := code, cls := cls, unit := unit, ts := s.now }] } }
  else
    let s := { s with wdg := { s.wdg with qlost := s.wdg.qlost + 1 } }
    evb (orw (bump s K.WDG_FQ_OVF_CNT) K.WDG_STATUS 0x20) 0xB007 (p4 s.wdg.qlost)

/-- The handling in progress is abandoned for one of a higher class (R498). -/
def abandonHandling (s : State) (h : Handling) (cls : Nat) : State :=
  let s := { s with wdg := { s.wdg with abandon := some { code := h.code, cls := h.cls, unit := h.unit, ts := h.ts } } }
  ev (orw (bump s K.WDG_ABANDON_CNT) K.WDG_STATUS 0x40) 0xB006 (p4 h.cls ++ p4 h.unit ++ p4 cls)

/-- A C1 handling counts as in progress for a pre-emption only until its abandonments complete (R498). -/
def c1Open (s : State) : Bool := coreIds.any fun c => s.cores[c].st = .aband

/-- A fault of a class, with its event code, in a unit (core mask; 0 module or pair), at the watchdog count `wdt` (R498).
A class of 5 stands for a second C4, which takes ladder level 3 directly. A raised handling has the unit of its new class (Table 18-1). -/
def raiseAt (s : State) (cls code unit wdt : Nat) : State :=
  match s.wdg.h with
  | none => beginHandling s cls code unit wdt
  | some h =>
    if cls < h.cls then queueFault s cls code unit
    else if cls = h.cls then
      if h.unit = unit || (h.unit &&& unit) != 0 then
        let s := { s with wdg := { s.wdg with h := some { h with cls := h.cls + 1, code := code, unit := if cls = 1 then unit else 0 } } }
        { s with wdg := { s.wdg with restartDue := s.wdg.restartDue || earlyCause s } }
      else { s with wdg := { s.wdg with h := some { h with unit := h.unit ||| unit } } }
    else
      let s := if h.cls = 1 && !(c1Open s) then s else abandonHandling s h cls
      beginHandling s cls code unit wdt

/-- A fault outside the watchdog: its count is taken from the timebase, one count in 100 units. -/
def raise (s : State) (cls code unit : Nat) : State := raiseAt s cls code unit ((s.now - s.wdg.base) / 100)

/-! ## Memory map (R38, R111, R185) -/

/-- Physical address of core c's X bank. -/
def xBase (c : Nat) : Nat := 0x01000000 + c * 0x20000
/-- Physical address of core c's Y bank. -/
def yBase (c : Nat) : Nat := xBase c + 0x10000
/-- Physical address of an instruction bank of core c. -/
def iBase (c : Nat) (sel : Bool) : Nat := 0x02000000 + c * 0x40000 + (if sel then 0x20000 else 0)
/-- Active instruction bank. -/
def activeBank (s : State) (c : CoreId) : Nat := iBase c s.mem.bank[c]

/-- Physical address of a data address as core c sees it (Table 1-4). -/
def physOf (c : Nat) (a : Nat) : Nat :=
  if 0x00100000 ≤ a ∧ a ≤ 0x0010FFFF then xBase c + (a - 0x00100000)
  else if 0x00200000 ≤ a ∧ a ≤ 0x0020FFFF then yBase c + (a - 0x00200000)
  else a

/-- A range lies wholly in the X bank, the Y bank or the shared program area (R91). -/
def inRegion (a n : Nat) : Bool :=
  (0x00100000 ≤ a && a + n ≤ 0x00110000) || (0x00200000 ≤ a && a + n ≤ 0x00210000) || (0x10000000 ≤ a && a + n ≤ 0x10780000)

/-- Home line of a physical address (Table 6-1); none for memory that is not retained (R184, R186). -/
def homeLine (p : Nat) : Option Nat :=
  if 0x01000000 ≤ p ∧ p < 0x01100000 then some ((p - 0x01000000) / 64)
  else if 0x10000000 ≤ p ∧ p < 0x106C0000 then some (0x4000 + (p - 0x10000000) / 64)
  else if 0x10780000 ≤ p ∧ p < 0x107C0000 then some (126976 + (p - 0x10780000) / 64)
  else none
/-- Physical address of a home line's first byte. -/
def homePhys (l : Nat) : Nat :=
  if l < 0x4000 then 0x01000000 + l * 64 else if l < 126976 then 0x10000000 + (l - 0x4000) * 64 else 0x10780000 + (l - 126976) * 64

/-- The address lies in a line of the input image, which is not tracked (R187). -/
def inInputImage (s : State) (p : Nat) : Bool :=
  match s.prog with
  | none => false
  | some g => decide (g.hdr.inBase / 64 ≤ p / 64) && decide (p / 64 * 64 < g.hdr.inBase + g.hdr.inSize)

/-- Insert into an ascending list without repeats. -/
def insertNat (x : Nat) : List Nat → List Nat
  | [] => [x]
  | a :: r => if x < a then x :: a :: r else if x = a then a :: r else a :: insertNat x r

/-- The memories are in canonical form: addresses strictly rising, no entry equal to what an unlisted address reads as. -/
def Memory.wf (m : Memory) : Bool := cellsWf 0 m.cells

/-- Update the memories. -/
def State.updMem (s : State) (f : Memory → Memory) : State := { s with mem := f s.mem }

/-- Write one byte; a change marks its line dirty (R192). A bit error of the word that no read has found stays (Assumption 120). -/
def writeByte (s : State) (p : Nat) (v : Byte) : State :=
  if cellGet 0 s.mem.cells p = v then s
  else
    let d := if inInputImage s p then s.mem.dirty else
      match homeLine p with
      | some l => insertNat l s.mem.dirty
      | none => s.mem.dirty
    { s with mem := { s.mem with cells := cellSet 0 s.mem.cells p v, dirty := d } }

/-- Write bytes from a physical address on. -/
def writeMem (s : State) (p : Nat) : List Byte → State
  | [] => s
  | b :: r => writeMem (writeByte s p b) (p + 1) r

/-- `n` bytes at a physical address, as the memories hold them. -/
def readMem (s : State) (p n : Nat) : List Byte := cellBytes 0 s.mem.cells p n
/-- A little-endian number at a physical address. -/
def readNat (s : State) (p n : Nat) : Nat := leNat (readMem s p n)

/-- Every held store takes effect, in ascending cycle and core order (R35). -/
def flushStores (s : State) : State :=
  { s.mem.stq.foldl (fun s t => writeMem s t.addr t.bytes) s with
    mem := { (s.mem.stq.foldl (fun s t => writeMem s t.addr t.bytes) s).mem with stq := [] } }

/-- A store enters in ascending cycle and core order. -/
def insertStore (t : Store) : List Store → List Store
  | [] => [t]
  | a :: r => if a.cyc < t.cyc ∨ (a.cyc = t.cyc ∧ a.core ≤ t.core) then a :: insertStore t r else t :: a :: r

/-- The byte that a load issued in cycle `j` reads: the last store of cycle j - 2 or earlier, else the memory (R35). -/
def seenByte (s : State) (p j : Nat) : Byte :=
  s.mem.stq.foldl (fun b t =>
    if t.cyc + 2 ≤ j ∧ t.addr ≤ p ∧ p < t.addr + t.bytes.length then t.bytes.getD (p - t.addr) 0 else b)
    (cellGet 0 s.mem.cells p)

/-- `n` bytes that a load issued in cycle `j` reads. -/
def seenBytes (s : State) (p n j : Nat) : List Byte := (List.range n).map fun i => seenByte s (p + i) j

/-- The protected word that holds a physical address: 64 bits in the shared SRAM (R36), 32 bits in a bank (R111). -/
def eccWord (p : Nat) : Nat := if 0x10000000 ≤ p then p / 8 * 8 else p / 4 * 4

/-- A read of the word finds a double-bit error; a word that is marked as failed answers as read and is found by no read again. -/
def eccBad (s : State) (p : Nat) : Bool := !(s.mem.failed.contains (eccWord p)) && s.mem.double.contains (eccWord p)

/-- What a read leaves of the errors of its word (R36, R111): a double-bit error marks it as failed, a single-bit error is corrected
and written back. -/
def eccFind (s : State) (p : Nat) : State :=
  let w := eccWord p
  if s.mem.failed.contains w then s
  else if s.mem.double.contains w then
    s.updMem fun m => { m with double := m.double.erase w, single := m.single.erase w, failed := insertNat w m.failed }
  else if s.mem.single.contains w then
    s.updMem fun m => { m with single := m.single.erase w, ceCnt := m.ceCnt + (if 0x10000000 ≤ w then 1 else 0) }
  else s

/-- A requester reads a word (R36, R111): a double-bit error raises its fault, once. `port` is the fabric port, `c` the reading core's
mask. -/
def eccRead (s : State) (p port c : Nat) : State :=
  let t := eccFind s p
  if !(eccBad s p) then t
  else if 0x10000000 ≤ eccWord p then raise (ev t 0xB00B (p4 (eccWord p) ++ p4 port ++ p8 t.tick.n)) 3 0xB00B 0
  else raise t 2 0x2010 c

/-- A port of the fabric reads a range: every word of the shared SRAM with a latent error in it is found. In a bank only a core's reads
find errors (R111, Assumption 24). -/
def eccRange (s : State) (p n port : Nat) : State :=
  ((s.mem.single ++ s.mem.double).filter fun w => decide (0x10000000 ≤ w) && decide (p < w + 8) && decide (w < p + n)).foldl
    (fun (s : State) (w : Nat) => eccRead s w port 0) s

/-- MRAM words with a single-bit error that a read finds are corrected and counted (R188). -/
def mramRead (s : State) (p : Nat → Bool) : State :=
  let n := (s.ret.mramSingle.filter p).length
  if n = 0 then s
  else bump { s with ret := { s.ret with mramSingle := s.ret.mramSingle.filter fun o => !(p o) } } K.RET_MRAM_CE_CNT n

/-! ## Wake sources (R238) -/

/-- A wake source triggers: bit of POWER.WAKE_CTRL and WAKE_CAUSE. In DORMANT it is noted where its bit is set (16#400 HOST always);
during entry only an alarm or a WAKE request is (`entry`). -/
def wakeMark (s : State) (bit : Nat) (entry : Bool) : State :=
  let enabled := decide (bit = 10) || rb s K.POWER_WAKE_CTRL bit
  let now := decide (s.mode = .dormant) || (entry && s.power.dorm.isSome)
  if enabled && now then
    { s with power := { s.power with wake := s.power.wake ||| 2 ^ bit, wakeTs := if s.power.wake = 0 then s.now else s.power.wakeTs } }
  else s

/-! ## Response status (Table 20-5) -/

/-- OK. -/
abbrev stOk : Nat := 0
/-- BUSY. -/
abbrev stBusy : Nat := 1
/-- CFG. -/
abbrev stCfg : Nat := 2
/-- STATE. -/
abbrev stState : Nat := 3
/-- ROLE. -/
abbrev stRole : Nat := 4
/-- CEDAR. -/
abbrev stCedar : Nat := 5
/-- DORMANT. -/
abbrev stDormant : Nat := 6
/-- LIMIT. -/
abbrev stLimit : Nat := 7
/-- PRIV. -/
abbrev stPriv : Nat := 8
/-- TOOOLD. -/
abbrev stTooold : Nat := 9
/-- WINDOW. -/
abbrev stWindow : Nat := 10
/-- NOSESSION. -/
abbrev stNosession : Nat := 11
/-- AUTH. -/
abbrev stAuth : Nat := 12
/-- FULL. -/
abbrev stFull : Nat := 13
/-- KIND. -/
abbrev stKind : Nat := 14
/-- BATCH. -/
abbrev stBatch : Nat := 15
/-- FORCE. -/
abbrev stForce : Nat := 16

/-! ## Image areas -/

/-- Period of the running image, or of CEDAR where there is none (R49). -/
def periodT (s : State) : Nat := match s.prog with | some g => g.hdr.period | none => s.tick.t

/-- The next edge of the sequencer (R50). -/
def nextEdge (s : State) : Nat := s.tick.e0 + s.tick.k * 100 * s.tick.t
/-- An instant falls in the interval of the next edge, or after it: it belongs to a tick that has not begun (R51). -/
def beyondEdge (s : State) (t : Nat) : Bool := s.tick.seqOn && decide (nextEdge s ≤ t)
/-- The Phase O instant of the tick (R50). -/
def phaseOInstant (s : State) : Nat := s.tick.edgeTs + 100 * s.tick.t - 300

/-- Area of a subsystem instance: code, instance, direction (R149). -/
def findArea (s : State) (code inst dir : Nat) : Option Area :=
  match s.prog with
  | none => none
  | some g => g.areas.find? fun a => a.code = code && a.inst = inst && a.dir = dir
/-- Physical address of an area in its image. -/
def areaAddr (s : State) (a : Area) : Nat :=
  match s.prog with
  | none => 0
  | some g => (if a.dir = 0 then g.hdr.inBase else g.hdr.outBase) + a.ofs
/-- Write an input area; nothing where the image has none. -/
def putArea (s : State) (code inst : Nat) (bytes : List Byte) : State :=
  match findArea s code inst 0 with
  | none => s
  | some a => writeMem s (areaAddr s a) (bytes.take a.len)
/-- Read an output area; none where the image has none. -/
def getArea (s : State) (code inst : Nat) : Option (List Byte) :=
  match findArea s code inst 1 with
  | none => none
  | some a => some (readMem s (areaAddr s a) a.len)

end Sys2Proof.Machine
end

