-- ==== Sys2Proof/Machine/Operands.lean ====
section
/-! DEFINITION. Register operands, results in flight, segment checks, memory accesses and the issue of an
instruction on a logic core (R83 to R120). -/

namespace Sys2Proof.Machine

/-! ## Registers -/

/-- A g register; g0 reads 0 (R86). -/
def Ctx.rg (x : Ctx) (r : RegNo) : Word := if r = 0 then 0 else x.g[r]
/-- A b register; b0 reads 1 (R86). -/
def Ctx.rbit (x : Ctx) (r : RegNo) : Bool := if r = 0 then true else x.b[r]
/-- Write a g register; a write to g0 is discarded. -/
def Ctx.wg (x : Ctx) (r : RegNo) (v : Word) : Ctx := if r = 0 then x else { x with g := x.g.set r v r.isLt }
/-- Write a b register; a write to b0 is discarded. -/
def Ctx.wb (x : Ctx) (r : RegNo) (v : Bool) : Ctx := if r = 0 then x else { x with b := x.b.set r v r.isLt }

/-- CSR bit AOV. -/
def csrAov : Word := 0x2
/-- CSR bit SAT. -/
def csrSat : Word := 0x1
/-- CSR bit OV. -/
def csrOv : Word := 0x4
/-- CSR bit DZ. -/
def csrDz : Word := 0x8

/-- A sum left the range of a 72-bit accumulator (R87). -/
def accWraps (a b : Acc) : Bool := decide (a.toInt + b.toInt < -(2 ^ 71)) || decide (2 ^ 71 ≤ a.toInt + b.toInt)

/-- A result completes (R99, R136, R142). -/
def Ctx.complete (x : Ctx) : Res → Ctx
  | .g r v => x.wg r v
  | .b r v => x.wb r v
  | .acc r v => { x with a := x.a.set r v r.isLt }
  | .accAdd r v =>
    { x with a := x.a.set r (x.a[r] + v) r.isLt, csr := if accWraps x.a[r] v then x.csr ||| csrAov else x.csr }
  | .s r d => { x with s := x.s.set r d r.isLt }
  | .csrOr m => { x with csr := x.csr ||| m }
  | .csrSet v => { x with csr := v }

/-- Complete the results of a list, in order. -/
def Ctx.completeAll (x : Ctx) : List Flight → Ctx
  | [] => x
  | f :: r => (x.complete f.res).completeAll r

/-- Every result that completes at the start of cycle `j` or earlier has completed (R99, R100). -/
def Ctx.settle (x : Ctx) (j : Nat) : Ctx :=
  { x with flight := [] }.completeAll (x.flight.takeWhile fun f => f.due ≤ j) |> fun y =>
    { y with flight := x.flight.dropWhile fun f => f.due ≤ j }

/-- A result goes in flight behind every one that completes no later (R100). -/
def insertFlight (f : Flight) : List Flight → List Flight
  | [] => [f]
  | a :: r => if a.due ≤ f.due then a :: insertFlight f r else f :: a :: r

/-- Results of an instruction issued in cycle `i`: distance and result. -/
def Ctx.launch (x : Ctx) (i : Nat) (l : List (Nat × Res)) : Ctx :=
  { x with flight := l.foldl (fun q d => insertFlight { due := i + d.1, res := d.2 } q) x.flight }

/-! ## Segments (R89 to R92) -/

/-- Descriptor fields (Table 3-3). -/
def dBase (d : Dword) : Nat := d.toNat % 2 ^ 32
/-- LIMIT. -/
def dLimit (d : Dword) : Nat := d.toNat / 2 ^ 32 % 2 ^ 24
/-- R. -/
def dR (d : Dword) : Bool := d.getLsbD 56
/-- W. -/
def dW (d : Dword) : Bool := d.getLsbD 57
/-- C. -/
def dC (d : Dword) : Bool := d.getLsbD 58
/-- TYPE. -/
def dType (d : Dword) : Nat := d.toNat / 2 ^ 60
/-- A descriptor from its two words. -/
def mkDesc (w0 w1 : Word) : Dword := BitVec.ofNat 64 (w0.toNat + w1.toNat * 2 ^ 32)

/-- The check of a descriptor at its load (R91). -/
def descOk (d : Dword) : Bool :=
  !(d.getLsbD 59) && decide (dType d < 10) &&
  if dType d = 0 then !(dR d) && !(dW d) && !(dC d)
  else decide (dBase d % 8 = 0) && inRegion (dBase d) (dLimit d + 1) &&
    (!(dC d) || (decide ((dLimit d + 1) % 4 = 0) && decide (16 ≤ dLimit d + 1)))

/-- The segment lies wholly in the X bank, or the Y bank (R108). -/
def inX (d : Dword) : Bool := decide (0x00100000 ≤ dBase d) && decide (dBase d + dLimit d ≤ 0x0010FFFF)
/-- Y bank. -/
def inY (d : Dword) : Bool := decide (0x00200000 ≤ dBase d) && decide (dBase d + dLimit d ≤ 0x0020FFFF)

/-- An access of `z` bytes at offset `o` passes the checks of R92. -/
def segOk (d : Dword) (store : Bool) (z o : Nat) : Bool :=
  (if store then dW d else dR d) && decide (o % z = 0) && decide (o ≤ dLimit d) && decide (o + z - 1 ≤ dLimit d)

/-- The access passes the segment's checks and those of Table 1-4 (R38): the X bank, the Y bank or the program area. -/
def accessOk (d : Dword) (store : Bool) (z o : Nat) : Bool := segOk d store z o && inRegion (dBase d + o) z

/-- Distance of a load through a descriptor (R129): 3 in a bank, 8 in shared SRAM. -/
def loadDist (d : Dword) : Nat := if inX d || inY d then 3 else 8

/-! ## What an instruction does -/

/-- The effect of one instruction before it takes hold: results with their distances, a store, a control
transfer, a new link stack, a change of the core's system window, and the words that it read. -/
structure Eff where
  res : List (Nat × Res) := []
  store : Option (Nat × List Byte) := none
  delay : Delay := .none
  link : Option (List (Word × Dword)) := none
  upd : Core → Core := id
  reads : List Nat := []

/-- The outcome of an instruction: its effect, or a fault with its code, segment register and offset. -/
inductive EOut where
  | ok (e : Eff)
  | fault (code : Nat) (seg : Nat) (ofs : Nat)

/-- An instruction of distance-1 register results and nothing else. -/
def results (l : List (Nat × Res)) : EOut := .ok { res := l }

/-! ## Faults of a core (R74, R104, R113, R114) -/

/-- A C1 fault: results in flight and the link stack are discarded, the event is recorded; a second one in the same tick is C2. -/
def coreFault (s : State) (c : CoreId) (code seg ofs : Nat) : State :=
  let k := s.cores[c]
  let x := k.ctx
  let s := ev s code (p4 c.val ++ p4 (if k.inEvt then 2 else 1) ++ p4 (if k.inEvt then k.slot else k.pos) ++ p4 x.pc.toNat ++
    p4 k.word.toNat ++ p8 s.tick.n ++ p4 seg ++ p4 ofs)
  let dead : Ctx := { x with flight := [], link := [], delay := .none }
  let s := s.updCore c fun k => { k.setCtx dead with lastFault := code }
  if code = 0x2010 then
    s.updCore c fun k => { k with st := .stopped, c2 := true }
  else
    let s := bump s (K.TICKk_FAULT_CNT c)
    if k.c1 then
      raise (s.updCore c fun k => { k with st := .stopped, c2 := true }) (if (s.wdg.h.map fun h => h.cls) = some 1 then 1 else 2) code (2 ^ c.val)
    else
      raise (s.updCore c fun k => { k with st := .aband, c1 := true, abCyc := k.cyc }) 1 code (2 ^ c.val)

/-- A double-bit error in a word that an instruction reads from a bank is a C2 core fault (R111). -/
def bankBad (s : State) (l : List Nat) : Bool := l.any fun p => decide (p < 0x10000000) && eccBad s p

/-- The local memory error of core `c` that reads of the words `l` find (R111): one fault, however many of them are bad. Assumption 120. -/
def localError (s : State) (c : CoreId) (l : List Nat) : State := coreFault (raise (l.foldl eccFind s) 2 0x2010 (2 ^ c.val)) c 0x2010 0 0

/-! ## Context at task and event start (R112) -/

/-- The empty context. -/
def Ctx.empty : Ctx :=
  { g := Vector.replicate 32 0, b := Vector.replicate 32 false, a := Vector.replicate 4 0, s := Vector.replicate 16 0,
    csr := 0, pc := 0, link := [], delay := .none, flight := [] }

/-- Entry `k` of the instance descriptor table of `s0` (R154). -/
def idtEntry (s : State) (c : CoreId) (s0 : Dword) (k j : Nat) : Dword :=
  BitVec.ofNat 64 (leNat (seenBytes s (physOf c (dBase s0) + 8 * k) 8 j))

/-- The task list of a core in the running image. -/
def taskList (s : State) (c : CoreId) : Option TList :=
  match s.prog with
  | none => none
  | some g => g.lists.find? fun t => t.core = c.val

/-- The words of an entry of the instance descriptor table. -/
def idtWords (c : CoreId) (s0 : Dword) (k : Nat) : List Nat := [physOf c (dBase s0) + 8 * k, physOf c (dBase s0) + 8 * k + 4]

/-- The descriptor that an instance call of index `k` through `s0` loads (R105): of TYPE INST and passing R91. -/
def instLoad (s : State) (c : CoreId) (s0 : Dword) (k j : Nat) : Option Dword :=
  if 8 * k + 7 > dLimit s0 then none
  else
    let d := idtEntry s c s0 k j
    if dType d = 2 && descOk d then some d else none

/-- The context of Table 3-11 for an entry of a task list; s1 is loaded as by an instance call. -/
def startCtx (s : State) (c : CoreId) (t : TList) (e : TaskE) (j : Nat) : Ctx :=
  let x := Ctx.empty
  let segs := [t.s0, (instLoad s c t.s0 e.inst j).getD 0] ++ t.segs
  { x with s := Vector.ofFn fun i => if i.val < 8 then segs.getD i.val 0 else 0, pc := BitVec.ofNat 32 e.entry }

/-- The load of s1 at a task or event start (R91, R111, R112): the words of the table are read, and a descriptor that an instance call
would refuse is a segment load fault of the task. Assumption 123. -/
def startLoad (s : State) (c : CoreId) (t : TList) (e : TaskE) (j : Nat) : State :=
  let words := idtWords c t.s0 e.inst
  if 8 * e.inst + 7 > dLimit t.s0 then coreFault s c 0x2005 0 (8 * e.inst)
  else if bankBad s words then localError s c words
  else
    match instLoad s c t.s0 e.inst j with
    | some _ => words.foldl eccFind s
    | none => coreFault (words.foldl eccFind s) c 0x2005 1 (8 * e.inst)

/-- A cyclic task is due in tick n when n mod d = p (R60). -/
def dueIn (n : Nat) (e : TaskE) : Bool := decide (n % 2 ^ e.dr = e.ph)

/-- The first due entry at or after position `p`. -/
def nextDue (t : TList) (n p : Nat) : Option (Nat × TaskE) :=
  ((List.range t.tasks.length).zip t.tasks).find? fun q => decide (p ≤ q.1) && dueIn n q.2

/-- Window W of a core in cycles (R53). -/
def window (s : State) : Nat := (s.tick.t - 5) * 495

/-- The release condition of an idle core (R66): a pending slot past the cutoff is deferred to the next Phase L. -/
def deferLate (s : State) (c : CoreId) : State :=
  match taskList s c with
  | none => s
  | some t =>
    let x := s.cores[c].cyc
    ((List.range t.slots.length).zip t.slots).foldl (fun s q =>
      if h : q.1 < 8 then
        let sl := s.cores[c].slots[q.1]
        if sl.pending && !sl.held && !(decide (x + q.2.wcet + 16 ≤ window s - 64)) then
          let s := s.updCore c fun k => { k with slots := k.slots.set q.1 { sl with held := true } h }
          orw (bump s (K.TICKk_EVT_DEFER c q.1)) K.TICK_STATUS 0x4
        else s
      else s) s

/-- A core has ended its list: it idles until Phase O, or runs a pending event task (R61, R66). -/
def goIdle (s : State) (c : CoreId) : State :=
  deferLate (s.updCore c fun k => { k with st := .idle, inEvt := false, used := k.cyc }) c

/-- The next due task from position `p` starts, or the core goes idle (R61). `lead` cycles pass before it. -/
def startFrom (s : State) (c : CoreId) (p lead : Nat) : State :=
  match taskList s c with
  | none => goIdle s c
  | some t =>
    match nextDue t s.tick.n p with
    | none => goIdle s c
    | some q =>
      let j := s.cores[c].cyc
      let s := s.updCore c fun k => { k with st := .run, inEvt := false, pos := q.1, cyc := k.cyc + lead, task := startCtx s c t q.2 k.cyc }
      startLoad s c t q.2 j

/-! ## Task end (R61, R62, R518, R519) -/

/-- MBX_OUT with every store of the task (R62). -/
def Core.mbxDrain (k : Core) : Core :=
  { k with mbxOut := k.mbxStq.foldl (fun m e => m.set e.2.1 e.2.2 e.2.1.isLt) k.mbxOut, mbxStq := [] }

/-- The executive looks at TOGGLE of MBX_OUT0 (R518) and takes, refuses or drops an occurrence (R519). -/
def progRecord (s : State) (c : CoreId) : State :=
  let m := s.cores[c].mbxSnap
  let w := m[0]
  let tg := w.getLsbD 0
  if s.evr.toggle[c] = tg then s
  else
    let s := { s with evr := { s.evr with toggle := s.evr.toggle.set c tg c.isLt } }
    let ty := (field w 31 16).toNat
    let len := (field w 13 8).toNat
    if ty < 0xF000 ∨ 60 < len then orw (bump s K.EVR_PROGREJ_CNT) K.EVR_STATUS 0x4
    else if rn s K.EVR_PROG_LIM ≤ s.tick.progOcc then bump s K.EVR_PROG_DROP_CNT
    else
      let pay := ((m.toList.drop 1).flatMap fun v => leBytes 4 v.toNat).take len
      let s := bump { s with tick := { s.tick with progOcc := s.tick.progOcc + 1 } } K.EVR_PROG_CNT
      pushOcc s { ts := s.now, code := ty, pay := pay, burst := w.getLsbD 1, prog := true }

/-- Size in bytes of a type code (Table 5-8). -/
def typeSize (t : Nat) : Nat :=
  if t ∈ [1, 2, 6, 10, 16] then 1 else if t ∈ [3, 7, 11] then 2 else if t ∈ [5, 9, 14, 33] then 8 else if t = 32 then 32 else 4

/-- Physical address of an element of a symbol (R155). -/
def symPhys (y : Sym) (i : Nat) : Nat := physOf (if y.core = 0xFF then 0 else y.core) (y.addr + i * y.stride)

/-- The bytes that a value has in an element; a BIT replaces one bit of the byte that stands there (R156). -/
def symBytes (y : Sym) (old : Byte) (v : Dword) : List Byte :=
  if y.ty = 16 then
    let b := y.flags / 2 ^ 12 % 8
    [if v.getLsbD 0 then old ||| ((1 : Byte) <<< b) else old &&& ~~~((1 : Byte) <<< b)]
  else leBytes (typeSize y.ty) v.toNat

/-- The symbol of a SYMID in the running image. -/
def findSym (s : State) (id : Dword) : Option Sym :=
  match s.prog with
  | none => none
  | some g => g.syms.find? fun y => y.symid = id

/-- A return at link-stack depth 0 ended the cyclic task: 8 cycles copy MBX_OUT, 3 cycles per entry of FRCAP replay the forces,
and the next due task starts 8 cycles later (R61, R62). -/
def taskEnd (imposeReplay : State → CoreId → State) (s : State) (c : CoreId) (at_ : Nat) : State :=
  let s := setNow s at_
  let s := s.updCore c fun k => let k := k.mbxDrain; { k with cyc := k.cyc + 8, mbxSnap := k.mbxOut }
  let s := progRecord s c
  let s := imposeReplay s c
  let fr := match taskList s c with | some t => t.frcap | none => 0
  let s := s.updCore c fun k => { k with cyc := k.cyc + 3 * fr }
  startFrom s c (s.cores[c].pos + 1) 8

/-- The event task returned: 8 cycles switch back (R67). -/
def eventEnd (s : State) (c : CoreId) : State :=
  let s := s.updCore c fun k =>
    let k := k.mbxDrain
    { k with cyc := k.cyc + 8, inEvt := false }
  if s.cores[c].resume then s.updCore c fun k => { k with st := .run, used := k.cyc, resume := false }
  else goIdle s c

/-- The replay entries of a core re-impose their forces (R62): one store per entry, 3 cycles each. -/
def replayForces (forces : List Force) (s : State) (c : CoreId) : State :=
  s.cores[c].replay.foldl (fun s e =>
    match forces.find? fun f => f.num = e.2 with
    | none => s
    | some f =>
      match findSym s f.symid with
      | none => s
      | some y =>
        let p := symPhys y f.index
        let j := s.cores[c].cyc + 3 * e.1 + 2
        s.updMem fun m => { m with stq := insertStore { cyc := j, core := c.val, addr := p, bytes := symBytes y (seenByte s p (j + 2)) f.value } m.stq }) s

/-! ## Issue -/

/-- The core can issue: Phase L runs and the core runs a task. -/
def canIssue (s : State) (c : CoreId) : Bool := decide (s.tick.phase = .l) && decide (s.cores[c].st = .run)

/-- The context in which the next instruction reads its operands (R99). -/
def issueCtx (s : State) (c : CoreId) : Ctx := s.cores[c].ctx.settle s.cores[c].cyc

/-- The effect takes hold: results go in flight, a store is held, PC and the delay slot advance, one cycle passes. -/
def applyEff (s : State) (c : CoreId) (x : Ctx) (e : Eff) : State :=
  let k := s.cores[c]
  let pc := match x.delay with | .jump t => t | _ => x.pc + 4
  let y := { x.launch k.cyc e.res with pc := pc, delay := e.delay, link := e.link.getD x.link }
  let s := match e.store with
    | none => s
    | some st => s.updMem fun m => { m with stq := insertStore { cyc := k.cyc, core := c.val, addr := st.1, bytes := st.2 } m.stq }
  let s := s.updCore c fun k => { (e.upd k).setCtx y with cyc := k.cyc + 1 }
  let s := e.reads.foldl (fun s p => eccRead s p c.val (2 ^ c.val)) s
  match x.delay with
  | .endTask at_ =>
    (if k.inEvt then eventEnd (setNow s at_) c else taskEnd (replayForces s.ret.j.forces) s c at_).updCore c fun k => { k with endTs := at_ }
  | _ => s

/-- One instruction issues on core `c` (R83, R99, R120): a fetch fault first, then what `f` computes from the context. An
instruction of a core that cannot issue changes nothing (Assumption 9). A local memory error of the fetch comes after the fetch
fault, one of an operand or a table after every other check, and the word that a failing fetch reports is the one that was sent
(Assumption 120). -/
def issue (s : State) (c : CoreId) (i : Instr) (f : Ctx → EOut) : State :=
  if !(canIssue s c) then s
  else
    let x := issueCtx s c
    let s := s.updCore c fun k => { k.setCtx x with word := (encode i).getD 0 }
    let ip := activeBank s c + x.pc.toNat
    if 0x1FFFF < x.pc.toNat then coreFault s c 0x2007 0 0
    else if bankBad s [ip] then localError s c [ip]
    else
      match f x with
      | .fault code seg ofs => coreFault s c code seg ofs
      | .ok e =>
        if bankBad s e.reads then localError s c e.reads else applyEff s c x e

/-- What a command answers. -/
abbrev Answer := Host.Outcome State Fault Refusal

/-- A branch, call or return in a delay slot is a delay-slot fault (R103). -/
def noSlot (x : Ctx) (o : EOut) : EOut := if x.delay = .none then o else .fault 0x2003 0 0

/-! ## The service core (R75, R115 to R117) -/

/-- The trap that the service core serves next when it is free at cycle `f` (R75): of the traps that wait then, that of the lowest core;
where none waits, the one that comes first. -/
def svFirst (f : Nat) : List SvTrap → Option SvTrap
  | [] => none
  | a :: r =>
    match svFirst f r with
    | none => some a
    | some b =>
      if max f a.at_ < max f b.at_ ∨ (max f a.at_ = max f b.at_ ∧ a.core.val ≤ b.core.val) then some a else some b

/-- The order of service of at most `n` traps from cycle `f` on. -/
def svPlan : Nat → Nat → List SvTrap → List SvTrap
  | 0, _, _ => []
  | n + 1, f, l =>
    match svFirst f l with
    | none => []
    | some a => { a with start := max f a.at_ } :: svPlan n (max f a.at_ + a.cost) (l.erase a)

/-- A wait beyond the table cost is reported (R75). -/
def svNote (s : State) (q : SvTrap) : State :=
  if q.start ≤ q.at_ then s
  else evb (orw (maxw s K.TICK_EMUL_WAIT_MAX (q.start - q.at_)) K.TICK_STATUS 0x10) 0x1004 (p4 q.core.val ++ p4 (q.start - q.at_) ++ p8 s.tick.n)

/-- A core whose trap is served resumes after its wait and its cost, later than planned (`was`) where another trap goes first. -/
def svMove (was : SvTrap → Nat) (s : State) (q : SvTrap) : State :=
  s.updCore q.core fun k =>
    if k.cyc = was q then { k with cyc := q.start + q.cost, abCyc := if k.st = .aband ∧ k.abCyc = was q then q.start + q.cost else k.abCyc } else k

/-- Core `c` traps in its present cycle for a service of `cost` cycles; it resumes when the service has ended. Assumption 122. -/
def svTrap (s : State) (c : CoreId) (cost : Nat) : State :=
  let i := s.cores[c].cyc
  let old := s.sv.queue
  let begun := old.filter fun q => decide (q.start < i)
  let s := begun.foldl svNote s
  let free := begun.foldl (fun m q => max m (q.start + q.cost)) s.sv.free
  let wait := (old.filter fun q => decide (i ≤ q.start)) ++ [{ core := c, at_ := i, cost := cost, start := i }]
  let plan := svPlan wait.length free wait
  let was := fun (q : SvTrap) =>
    if q.core = c then i else match old.find? fun o => o.core = q.core with | some o => o.start + o.cost | none => q.at_
  plan.foldl (svMove was) { s with sv := { free := free, queue := plan } }

/-- The services of the tick have begun, and their waits are reported; the service core is free for the next tick. -/
def svEnd (s : State) : State := { s.sv.queue.foldl svNote s with sv := { free := 0, queue := [] } }

/-- A trap of an emulated opcode (R115 to R117, R143): every result in flight completes, the service core computes, the
core resumes after the cost and any wait. In a delay slot it is an illegal instruction. -/
def emulate (s : State) (c : CoreId) (i : Instr) (cost : Nat) (f : Ctx → Option (List Res)) : State :=
  if !(canIssue s c) then s
  else
    let x := issueCtx s c
    let s := s.updCore c fun k => { k.setCtx x with word := (encode i).getD 0 }
    let ip := activeBank s c + x.pc.toNat
    if 0x1FFFF < x.pc.toNat then coreFault s c 0x2007 0 0
    else if bankBad s [ip] then localError s c [ip]
    else if x.delay ≠ .none then coreFault s c 0x2002 0 0
    else
      let y := { x with flight := [] }.completeAll x.flight
      let s := svTrap s c cost
      match f y with
      | none => coreFault (s.updCore c fun k => k.setCtx y) c 0x2002 0 0
      | some l => s.updCore c fun k => k.setCtx { l.foldl Ctx.complete y with pc := y.pc + 4 }

end Sys2Proof.Machine
end

