-- ==== Sys2Proof/Machine/Link.lean ====
section
/-! DEFINITION. Tytis field links (R250 to R289): frames, delay measurement, link states and health. -/

namespace Sys2Proof.Machine

/-- Update one link. -/
def State.updLink (s : State) (k : Fin 16) (f : LinkSt → LinkSt) : State :=
  { s with links := s.links.set k (f s.links[k]) k.isLt }

/-- The link rule (R264), in ns. -/
def linkFits (n t : Nat) : Bool := decide (40 * (24 + 32 * n) + 60 * n + 2000 ≤ 1000 * t)

/-- Heads of a link. -/
def heads (s : State) (k : Fin 16) : Nat := rn s (K.LINKk_HEADS k)
/-- Wire position of a head index, and back (R261). -/
def wirePos (s : State) (k : Fin 16) (h : Nat) : Nat :=
  if rw s (K.LINKk_END k) = 0 then h else heads s k - 1 - h
/-- State code (Table 8-12). -/
def linkState (s : State) (k : Fin 16) : Nat := rn s (K.LINKk_STATE k)
/-- Set the state, and the module's UPMASK with it. -/
def setLinkState (s : State) (k : Fin 16) (v : Nat) : State := putBit (sn s (K.LINKk_STATE k) v) K.LINK_UPMASK k (v = 2)

/-! ## Frames sent -/

/-- Downstream header (Table 8-3); HOP is 0. -/
def linkHeader (s : State) (ty n : Nat) : List Byte :=
  leBytes 1 ty ++ leBytes 1 n ++ leBytes 1 (rn s K.ENC_AVALID % 2) ++ [0] ++ leBytes 4 s.ret.x.epoch ++ leBytes 2 s.tick.n ++
    leBytes 4 (rn s K.ENC_THETA0) ++ leBytes 4 (rn s K.ENC_OMEGA)

/-- A section with its SCRC (R260). -/
def withScrc (b : List Byte) : List Byte := b ++ leBytes 2 (crc16 b)

/-- Actuation section of head index `h` (Table 8-5): the program's fields, with ADDR and DELAY. -/
def liveSection (s : State) (k : Fin 16) (h : Nat) : List Byte :=
  let b := slice s.links[k].buf (8 + 32 * h) 32
  withScrc (leBytes 1 (wirePos s k h) ++ slice b 1 3 ++ leBytes 2 (rn s (K.LINKk_DELAY k h)) ++ slice b 6 24)

/-- Configuration section of head index `h` (Table 8-6), from LINKSAFE of the image. -/
def cfgSection (s : State) (k : Fin 16) (h : Nat) : List Byte :=
  let safe := match s.prog with | some g => slice g.linkSafe (16 * (32 * k.val + h)) 9 | none => padTo 9 []
  withScrc (leBytes 1 (wirePos s k h) ++ [0] ++ leBytes 4 (rn s (K.LINKk_HTO k) * s.tick.t) ++ safe ++ [0] ++
    leBytes 2 (rn s (K.LINKk_DELAY k h)) ++ padTo 12 [])

/-- A whole downstream frame between SOF and EOF (R254). -/
def linkFrame (s : State) (k : Fin 16) (ty : Nat) : List Byte :=
  let n := heads s k
  let secs := (List.range n).flatMap fun p =>
    let h := wirePos s k p
    if ty = 0x11 then liveSection s k h else cfgSection s k h
  let b := linkHeader s ty n ++ secs
  b ++ leBytes 4 (crc32 b)

/-- A downstream frame as the line carries it (Table 8-2). -/
def linkSyms (b : List Byte) : List LinkSym := .sof :: b.map .data ++ [.eof]

/-- The link sends a frame of a type. -/
def sendFrame (s : State) (k : Fin 16) (ty : Nat) : State := emit s (.link k s.now (linkSyms (linkFrame s k ty)))

/-- The type of the frame at an edge (Table 8-14); none where the link is silent. -/
def frameChoice (s : State) (k : Fin 16) : Option Nat :=
  let st := linkState s k
  let buf := s.links[k].buf
  if st = 0 ∨ st = 4 ∨ st = 5 ∨ 0 < s.links[k].burst then none
  else if s.mode = .safe then some 0x13
  else if s.mode = .held ∨ st = 1 then some 0x12
  else if st = 3 ∧ rn s (K.LINKk_POLICY k) % 4 ≠ 0 then some 0x13
  else if (buf.getD 0 0).getLsbD 1 then some 0x13
  else some 0x11

/-! ## Bursts (R283) -/

/-- The link transmits: START, UP or LOSS. -/
def linkSends (s : State) (k : Fin 16) : Bool := let st := linkState s k; st = 1 || st = 2 || st = 3

/-- What the transmitter drives when it sends no frame (R250, R253): idle until it falls silent. -/
def linkLine (s : State) (k : Fin 16) : LinkLine := if linkSends s k || decide (0 < s.links[k].burst) then .idle else .silent

/-- A safe burst begins on a transmitting link. The upstream of the last frame is latched at the next edge as any other (R267). -/
def startBurst (s : State) (k : Fin 16) (closing : Bool) : State :=
  if linkSends s k then s.updLink k fun l => { l with burst := 8, burstAt := s.now, closing := closing } else s

/-- Every link number. -/
def linkIds : List (Fin 16) := List.finRange 16

/-- The module has been superseded: a link is FENCED, which it leaves at a restart only (R272, R278, R378). -/
def fenced (s : State) : Bool := linkIds.any fun k => decide (linkState s k = 4)

/-- A safe burst on every transmitting link. -/
def burstAll (s : State) : State := linkIds.foldl (fun (s : State) (k : Fin 16) => startBurst s k true) s

/-- The next frame of a safe burst leaves, 50 µs after the one before it (R283). -/
def burstFrame (k : Fin 16) (s : State) : State :=
  let l := s.links[k]
  if l.burst = 0 then s
  else
    let s := sendFrame (setNow s l.burstAt) k 0x13
    let s := s.updLink k fun l => { l with burst := l.burst - 1, burstAt := l.burstAt + 5000 }
    if l.burst = 1 ∧ l.closing then
      (setLinkState s k 0).updLink k fun l => { l with closing := false }
    else s

/-! ## Enabling (R265, R278) -/

/-- Refusal of an enabling for the link rule (R265). -/
def budgetRefused (s : State) (k : Fin 16) : State :=
  ev (orw s (K.LINKk_STATUS k) 0x10) 0x4009 (p4 k.val ++ p4 (heads s k) ++ p4 (periodT s))

/-- A write to LINK[k].ENABLE; answers whether it was applied. -/
def linkEnable (s : State) (k : Fin 16) (v : Bool) : State × Bool :=
  if v then
    if linkFits (heads s k) (periodT s) then (sw s (K.LINKk_ENABLE k) 1, true) else (budgetRefused s k, false)
  else
    let s := sw s (K.LINKk_ENABLE k) 0
    if linkSends s k then (startBurst s k true, true)
    else if linkState s k = 5 then (setLinkState s k 0, true)
    else (s, true)

/-- A write of ENABLE of a link takes effect (R265, R278, R283). -/
def execLinkEnableWrite (k : Fin 16) (v : Bool) (s : State) : Answer := .next (linkEnable s k v).1

/-- An exchange that changes T re-applies the link rule (R265). -/
def linkRecheck (s : State) : State :=
  linkIds.foldl (fun (s : State) (k : Fin 16) =>
    if rw s (K.LINKk_ENABLE k) = 1 ∧ !(linkFits (heads s k) (periodT s)) then
      startBurst (sw (budgetRefused s k) (K.LINKk_ENABLE k) 0) k true
    else s) s

/-! ## Frames received -/

/-- Section at a wire position of an upstream frame. -/
def upSection (u : UFrame) (p : Nat) : List Byte := slice u.bytes (2 + 16 * p) 16
/-- The section passes its SCRC. -/
def secIntact (b : List Byte) : Bool := leNat (b.drop 14) = crc16 (b.take 14)
/-- PRESENT. -/
def presentBit (b : List Byte) : Bool := (b.getD 0 0).getLsbD 5
/-- PRESENT and the expected position. -/
def secPresent (b : List Byte) (p : Nat) : Bool := presentBit b && decide ((b.getD 0 0).toNat % 32 = p)
/-- HSTAT bits. -/
def hstat (b : List Byte) (i : Nat) : Bool := (b.getD 1 0).getLsbD i

/-- The upstream frame that answers the last frame sent (R267); none counts as missing. -/
def answered (l : LinkSt) : Option UFrame :=
  match l.last, l.up with
  | some f, some u =>
    if u.bytes.length = 6 + 16 * f.n ∧ (u.bytes.getD 0 0).toNat = f.tseq % 256 then some u else none
  | _, _ => none

/-- An upstream frame is complete at the module (R266, R267). It is kept for the next edge, unless one that answers the last frame sent is kept
already. `arr` are the arrivals of the sections' first symbols. A frame that is complete at the next edge or after it answers nothing. -/
def execUpstreamFrame (k : Fin 16) (bytes : List Byte) (arr : List Nat) (at_ : Nat) (s : State) : Answer :=
  let s := setNow s at_
  .next (
    if beyondEdge s s.now || (answered s.links[k]).isSome then s
    else s.updLink k fun l => { l with up := some { bytes := bytes, arr := arr, done := s.now } })

/-- A downstream frame of the partner arrives in LISTEN, where it is counted (R253, R284), or while step 9 of a start is waiting; one that passes its
CRC-32 is the witness of R369 and R372. -/
def execListenFrame (k : Fin 16) (ok : Bool) (at_ : Nat) (s : State) : Answer :=
  let s := setNow s at_
  .next (
    let listens := decide (s.role = .standby) || decide (s.role = .syncing) || decide (linkState s k = 5)
    let s := if listens then bump s (if ok then K.LINKk_LISTEN_OK_CNT k else K.LINKk_LISTEN_ERR_CNT k) else s
    if ok && (listens || decide (s.start.step = .role)) then { s with pair := { s.pair with witness := some (s.now, k.val) } } else s)

/-- CRC-32 of an upstream frame (R260). -/
def upCrcOk (u : UFrame) : Bool :=
  let m := u.bytes.length - 4
  leNat (u.bytes.drop m) = crc32 (u.bytes.take m)

/-- A delay measurement from an intact section (R269), doubled, in units of 10 ns. -/
def measureDelay (s : State) (k : Fin 16) (h : Nat) (f : LFrame) (arrival : Nat) (turn : Nat) : State :=
  let m := arrival - f.edge - turn
  let q := (m :: s.links[k].hist.getD h []).take 16
  let s := s.updLink k fun l => { l with hist := l.hist.set h q }
  sn s (K.LINKk_DELAY k h) ((q.foldl (· + ·) 0 + q.length) / (2 * q.length))

/-- One section of an answered frame: counts, delay, FENCED (R269, R272, R284). -/
def takeSection (s : State) (k : Fin 16) (f : LFrame) (u : UFrame) (p : Nat) : State :=
  let b := upSection u p
  let h := wirePos s k p
  if !(secIntact b) then
    evb (orw (bump s (K.LINKk_SEC_CRC_CNT k)) (K.LINKk_STATUS k) 0x1) 0x400B (p4 k.val ++ p4 2)
  else
    let s := measureDelay s k h f (u.arr.getD p 0) (leNat (slice b 0xA 2))
    let s := if hstat b 4 then
        evb (orw (bump s (K.LINKk_LATE_CNT k)) (K.LINKk_STATUS k) 0x80) 0x400A (p4 k.val ++ p4 h) else s
    if hstat b 3 then orw (bump s (K.LINKk_FENCE_CNT k)) (K.LINKk_STATUS k) 0x8 else s

/-- The first head index whose intact section reports FENCED, on a link that sent a frame (R272). -/
def fencedBy (s : State) (k : Fin 16) : Option Nat :=
  match answered s.links[k] with
  | none => none
  | some u => (List.range (heads s k)).find? fun h =>
      let b := upSection u (wirePos s k h)
      secIntact b && hstat b 3

/-- A head index is confirmed by its identity section (R280). -/
def confirmed (s : State) (k : Fin 16) (u : UFrame) (h : Nat) : Bool :=
  let p := wirePos s k h
  let b := upSection u p
  let id := rw s (K.LINKk_HEAD_ID k h)
  let v := (field id 31 16).toNat
  let m := (field id 15 0).toNat
  secIntact b && secPresent b p && !(hstat b 2) && (b.getD 0xC 0).getLsbD 0 &&
    (v = 0 || v = leNat (slice b 2 2)) && (m = 0 || m = leNat (slice b 4 2))

/-- Confirmation of the heads in START (R280): serials, and the event of the first unconfirmed index. -/
def confirmHeads (s : State) (k : Fin 16) (u : UFrame) : State × Bool :=
  let n := heads s k
  let s := (List.range n).foldl (fun s h =>
    if confirmed s k u h then sn s (K.LINKk_SERIAL k h) (leNat (slice (upSection u (wirePos s k h)) 6 4)) else s) s
  match (List.range n).find? fun h => !(confirmed s k u h) with
  | none => (s, true)
  | some h =>
    let q := upSection u (wirePos s k h)
    let b := if secIntact q then q else padTo 16 []
    (evb (orw s (K.LINKk_STATUS k) 0x20) 0x4002
      (p4 k.val ++ p4 h ++ p4 (leNat (slice b 2 2)) ++ p4 (leNat (slice b 4 2)) ++ p4 (leNat (slice b 0xC 1))), false)

/-- Heads in START of which this tick's upstream tells nothing: no index is confirmed (R280). -/
def noneConfirmed (s : State) (k : Fin 16) : State :=
  if heads s k = 0 then s else evb (orw s (K.LINKk_STATUS k) 0x20) 0x4002 (p4 k.val ++ p4 0 ++ p4 0 ++ p4 0 ++ p4 0)

/-- Misses of the heads in UP and LOSS in a tick whose upstream passes its CRC-32 (R281). -/
def countMisses (s : State) (k : Fin 16) (u : UFrame) : State :=
  (List.range (heads s k)).foldl (fun s h =>
    let b := upSection u (wirePos s k h)
    let isLost := rb s (K.LINKk_LOST k) h
    if secIntact b && presentBit b && !(hstat b 2) then
      let s := s.updLink k fun l => { l with miss := l.miss.set h 0 }
      if isLost then ev (putBit s (K.LINKk_LOST k) h false) 0x4004 (p4 k.val ++ p4 h) else s
    else
      let m := s.links[k].miss.getD h 0 + 1
      let s := s.updLink k fun l => { l with miss := l.miss.set h m }
      if !isLost && rn s (K.LINKk_HMISS_LIM k) ≤ m then
        ev (orw (putBit s (K.LINKk_LOST k) h true) (K.LINKk_STATUS k) 0x2) 0x4003 (p4 k.val ++ p4 h)
      else s) s

/-- Entry to START: histories, with the delays formed from them, and misses are cleared (R269, R278); a LOST bit stands until the first tick without
a miss (R281). -/
def enterStart (s : State) (k : Fin 16) : State :=
  let s := (List.range 32).foldl (fun (s : State) (h : Nat) => sn s (K.LINKk_DELAY k h) 0) s
  (bump (setLinkState s k 1) (K.LINKk_START_CNT k)).updLink k fun l =>
    { l with hist := List.replicate 32 [], miss := List.replicate 32 0, fail := 0 }

/-- Link loss is declared (R282). -/
def linkLoss (s : State) (k : Fin 16) : State :=
  let s := setLinkState s k 3
  let pol := rn s (K.LINKk_POLICY k) % 4
  let s := ev (orw (bump s (K.LINKk_LOSS_CNT k)) (K.LINKk_STATUS k) 0x4) 0x4005 (p4 k.val ++ p4 pol)
  if pol = 2 then raise s 3 0x4005 0 else s

/-- The counts of one answered tick (R284). -/
def upCounts (s : State) (k : Fin 16) (f : LFrame) : State :=
  match answered s.links[k] with
  | none => bump s (K.LINKk_UP_MISS_CNT k)
  | some u =>
    let s := (List.range f.n).foldl (fun s p => takeSection s k f u p) s
    if !(upCrcOk u) then
      evb (orw (bump s (K.LINKk_UP_CRC_CNT k)) (K.LINKk_STATUS k) 0x1) 0x400B (p4 k.val ++ p4 1)
    else if (u.bytes.getD 1 0).getLsbD 0 then
      let e := ((List.range f.n).find? fun p => (upSection u p |>.getD 0 0).getLsbD 6).getD 0xFF
      evb (sn (orw s (K.LINKk_STATUS k) 0x40) (K.LINKk_BREAK_POS k) e) 0x4008 (p4 k.val ++ p4 e)
    else s

/-- The transition of a link at an edge, from the upstream latched there (R278). -/
def linkTransition (s : State) (k : Fin 16) : State :=
  let st := linkState s k
  let l := s.links[k]
  let ctrl := (l.buf.getD 0 0).getLsbD 0
  let restart := ctrl && !l.restartPrev
  let s := s.updLink k fun l => { l with restartPrev := ctrl }
  let ok := match answered l with | some u => upCrcOk u | none => false
  if !(drives s.role) then
    if st = 5 ∨ 0 < l.burst ∨ (st = 0 ∧ rw s (K.LINKk_ENABLE k) ≠ 1) then s else setLinkState s k 5
  else if st = 0 then
    if rw s (K.LINKk_ENABLE k) = 1 && linkFits (heads s k) (periodT s) && ticking s.mode && l.burst = 0 then enterStart s k else s
  else if st = 5 then (if rw s (K.LINKk_ENABLE k) = 1 then enterStart s k else setLinkState s k 0)
  else if st = 4 ∨ 0 < l.burst then s
  else if l.last = none then s
  else if st = 1 then
    match answered l, l.last with
    | some u, some f =>
      if f.ty = 0x12 then
        let r := confirmHeads s k u
        if r.2 && ok && !((u.bytes.getD 1 0).getLsbD 0) then
          ev ((setLinkState r.1 k 2).updLink k fun l => { l with fail := 0 }) 0x4001 (p4 k.val ++ p4 (heads s k) ++ p8 s.tick.n)
        else r.1
      else noneConfirmed s k
    | _, _ => noneConfirmed s k
  else
    let s := match answered l with | some u => if ok then countMisses s k u else s | none => s
    if restart then enterStart s k
    else if st = 2 then
      if ok then s.updLink k fun l => { l with fail := 0 }
      else
        let s := s.updLink k fun l => { l with fail := l.fail + 1 }
        if rn s (K.LINKk_LLOSS_LIM k) ≤ s.links[k].fail then linkLoss s k else s
    else if ok && rn s (K.LINKk_POLICY k) % 4 = 0 then
      ev ((setLinkState s k 2).updLink k fun l => { l with fail := 0 }) 0x4006 (p4 k.val)
    else s

/-- The input area of a link (R286). -/
def linkInput (s : State) (k : Fin 16) : State :=
  let l := s.links[k]
  let n := heads s k
  let a := answered l
  let missing := l.last.isSome && a.isNone
  let crcf := match a with | some u => !(upCrcOk u) | none => false
  let brk := match a with | some u => !crcf && (u.bytes.getD 1 0).getLsbD 0 | none => false
  let sec := fun h =>
    match a with
    | some u => let b := upSection u (wirePos s k h); if secIntact b then b else padTo 16 []
    | none => padTo 16 []
  let pres := maskOf ((List.range n).filter fun h => presentBit (sec h))
  let s := sn s (K.LINKk_PRESENT k) pres
  putArea s 3 k.val (leBytes 1 (linkState s k) ++
    leBytes 1 ((if missing then 4 else 0) + (if crcf then 2 else 0) + (if brk then 1 else 0)) ++ [0, 0] ++ leBytes 4 pres ++
    (List.range n).flatMap sec)

/-- One link at an edge: counts, transition, input area, frame (R266, R267, R278, R279). -/
def linkEdge (s : State) (k : Fin 16) : State :=
  let s := match s.links[k].last with | some f => upCounts s k f | none => s
  let s := linkInput (linkTransition s k) k
  match frameChoice s k with
  | none => s.updLink k fun l => { l with last := none, up := none }
  | some ty =>
    (sendFrame s k ty).updLink k fun l =>
      { l with last := some { ty := ty, tseq := s.tick.n % 65536, n := heads s k, edge := s.now }, up := none }

/-- A section reporting FENCED on any link that answered (R272): link, head index and TSEQ. -/
def fenceReport (s : State) : Option (Fin 16 × Nat × Nat) :=
  (linkIds.filterMap fun k => (fencedBy s k).map fun h => (k, h, (s.links[k].last.map fun f => f.tseq).getD 0)).head?

/-- Every link enters FENCED and falls silent, with no burst (R272, Assumption 128). -/
def linksFenced (s : State) : State :=
  linkIds.foldl (fun (s : State) (k : Fin 16) =>
    (setLinkState s k 4).updLink k fun l => { l with burst := 0, closing := false }) s

/-- What the links latched at the edge of a fence: counts and input areas; C4 is raised (R272, R378). -/
def fenceLinks (s : State) (r : Fin 16 × Nat × Nat) : State :=
  let s := linkIds.foldl (fun (s : State) (k : Fin 16) =>
    linkInput (match s.links[k].last with | some f => upCounts s k f | none => s) k) s
  let s := linkIds.foldl (fun (s : State) (k : Fin 16) => s.updLink k fun l => { l with last := none, up := none }) s
  raise (ev (orw s K.LINK_STATUS 1) 0x4007 (p4 r.1.val ++ p4 r.2.1 ++ p4 r.2.2)) 4 0x4007 0

/-- The field links at an edge. -/
def linksEdge (s : State) : State :=
  match fenceReport s with
  | some r => if drives s.role then fenceLinks (linksFenced s) r else linkIds.foldl linkEdge s
  | none => linkIds.foldl linkEdge s

/-- Phase O: each enabled link's output area goes into its frame buffer (R266). -/
def linksCapture (s : State) : State :=
  linkIds.foldl (fun (s : State) (k : Fin 16) =>
    if rw s (K.LINKk_ENABLE k) = 1 then
      match getArea s 3 k.val with
      | some b => s.updLink k fun l => { l with buf := b }
      | none => s
    else s) s

/-- The links fall silent at once (R409). -/
def linksSilent (s : State) : State :=
  linkIds.foldl (fun (s : State) (k : Fin 16) => (if linkState s k = 0 then s else setLinkState s k 5).updLink k fun l =>
    { l with last := none, up := none, burst := 0, closing := false }) s

end Sys2Proof.Machine
end

