-- ==== Sys2Proof/Machine/Float.lean ====
section
/-! DEFINITION. IEEE 754 binary arithmetic with rounding to nearest, ties to even: binary32 as the
emulated opcodes (R144, R145) and the loop engine use it, and binary64 as the identification uses it. -/

namespace Sys2Proof.Machine

/-- A binary format: exponent bits and fraction bits. -/
structure Fmt where
  eb : Nat
  mb : Nat
  deriving DecidableEq, Repr

/-- binary32. -/
def f32 : Fmt := ⟨8, 23⟩
/-- binary64. -/
def f64 : Fmt := ⟨11, 52⟩

/-- The exception conditions of one operation: invalid, division by zero, overflow, underflow, inexact. -/
structure FFlags where
  nv : Bool := false
  dz : Bool := false
  ov : Bool := false
  uf : Bool := false
  nx : Bool := false
  deriving DecidableEq, Repr

/-- A decoded operand. `num s m e` is the number (-1)^s · m · 2^e, zero included. -/
inductive FVal where
  | num (s : Bool) (m : Nat) (e : Int)
  | inf (s : Bool)
  | nan (signalling : Bool)
  deriving DecidableEq, Repr

/-- Exponent of the least significant bit of a subnormal number. -/
def Fmt.qmin (f : Fmt) : Int := 2 - (2 : Int) ^ (f.eb - 1) - (f.mb : Int)
/-- Bits of +infinity. -/
def Fmt.infBits (f : Fmt) : Nat := (2 ^ f.eb - 1) * 2 ^ f.mb
/-- Bits of the one NaN result, the quiet NaN (R144). -/
def Fmt.qnan (f : Fmt) : Nat := f.infBits + 2 ^ (f.mb - 1)
/-- The sign bit's weight. -/
def Fmt.signW (f : Fmt) : Nat := 2 ^ (f.eb + f.mb)

/-- Decode the bits of a number. -/
def fUnpack (f : Fmt) (b : Nat) : FVal :=
  let s := b.testBit (f.eb + f.mb)
  let e := (b / 2 ^ f.mb) % 2 ^ f.eb
  let m := b % 2 ^ f.mb
  if e = 2 ^ f.eb - 1 then
    if m = 0 then .inf s else .nan (!(m.testBit (f.mb - 1)))
  else if e = 0 then .num s m f.qmin
  else .num s (m + 2 ^ f.mb) (f.qmin + (e : Int) - 1)

/-- Round `m / 2^sh` to nearest, ties to even. -/
def rne (m sh : Nat) : Nat :=
  if sh = 0 then m else
    let q := m / 2 ^ sh
    let r := m % 2 ^ sh
    let half := 2 ^ (sh - 1)
    if half < r ∨ (r = half ∧ q % 2 = 1) then q + 1 else q

/-- `m · 2^(e - q)` rounded to an integer; exact when `q ≤ e`. -/
def alignRne (m : Nat) (e q : Int) : Nat :=
  if q ≤ e then m * 2 ^ (e - q).toNat else rne m (q - e).toNat

/-- Whether `m · 2^(e - q)` is no integer. -/
def alignLoses (m : Nat) (e q : Int) : Bool :=
  if q ≤ e then false else m % 2 ^ (q - e).toNat != 0

/-- Encode (-1)^s · m · 2^e (R144): rounding, overflow to infinity, tininess detected after rounding. -/
def fPack (f : Fmt) (s : Bool) (m : Nat) (e : Int) : Nat × FFlags :=
  let sw := if s then f.signW else 0
  if m = 0 then (sw, {}) else
    let len : Int := (Nat.log2 m + 1 : Nat)
    let qu := len + e - (f.mb + 1 : Nat)
    let q := max qu f.qmin
    let r := alignRne m e q
    let nx := alignLoses m e q
    let bits := r + (q - f.qmin).toNat * 2 ^ f.mb
    if f.infBits ≤ bits then (sw + f.infBits, { ov := true, nx := true })
    else
      let ru := alignRne m e qu
      let tiny := qu < f.qmin && (Nat.log2 ru : Int) + qu < f.qmin + f.mb
      (sw + bits, { uf := tiny && nx, nx := nx })

/-- Result of an invalid operation. -/
def fInvalid (f : Fmt) : Nat × FFlags := (f.qnan, { nv := true })
/-- A NaN operand gives the quiet NaN; a signalling one is invalid as well. -/
def fNanOut (f : Fmt) (sig : Bool) : Nat × FFlags := (f.qnan, { nv := sig })
/-- Infinity of a sign. -/
def fInf (f : Fmt) (s : Bool) : Nat × FFlags := ((if s then f.signW else 0) + f.infBits, {})

/-- The signalling bit of a pair of operands, if either is a NaN. -/
def nanOf : FVal → FVal → Option Bool
  | .nan a, .nan b => some (a || b)
  | .nan a, _ => some a
  | _, .nan b => some b
  | _, _ => none

/-- Signed mantissa. -/
def sgn (s : Bool) (m : Nat) : Int := if s then -(m : Int) else m

/-- Addition. -/
def fAdd (f : Fmt) (x y : Nat) : Nat × FFlags :=
  let a := fUnpack f x
  let b := fUnpack f y
  match nanOf a b with
  | some sig => fNanOut f sig
  | none => match a, b with
    | .inf s, .inf t => if s = t then fInf f s else fInvalid f
    | .inf s, _ => fInf f s
    | _, .inf t => fInf f t
    | .num s m e, .num t n d =>
      let q := min e d
      let v := sgn s (m * 2 ^ (e - q).toNat) + sgn t (n * 2 ^ (d - q).toNat)
      if v = 0 then fPack f (s && t) 0 q else fPack f (decide (v < 0)) v.natAbs q
    | _, _ => fInvalid f

/-- Sign change. -/
def fNeg (f : Fmt) (x : Nat) : Nat := if x.testBit (f.eb + f.mb) then x - f.signW else x + f.signW
/-- Subtraction; a NaN operand keeps its kind. -/
def fSub (f : Fmt) (x y : Nat) : Nat × FFlags := fAdd f x (fNeg f y)

/-- Multiplication. -/
def fMul (f : Fmt) (x y : Nat) : Nat × FFlags :=
  let a := fUnpack f x
  let b := fUnpack f y
  match nanOf a b with
  | some sig => fNanOut f sig
  | none => match a, b with
    | .inf s, .inf t => fInf f (Bool.xor s t)
    | .inf s, .num t n _ => if n = 0 then fInvalid f else fInf f (Bool.xor s t)
    | .num s m _, .inf t => if m = 0 then fInvalid f else fInf f (Bool.xor s t)
    | .num s m e, .num t n d => fPack f (Bool.xor s t) (m * n) (e + d)
    | _, _ => fInvalid f

/-- Division. -/
def fDiv (f : Fmt) (x y : Nat) : Nat × FFlags :=
  let a := fUnpack f x
  let b := fUnpack f y
  match nanOf a b with
  | some sig => fNanOut f sig
  | none => match a, b with
    | .inf _, .inf _ => fInvalid f
    | .inf s, .num t _ _ => fInf f (Bool.xor s t)
    | .num s _ _, .inf t => fPack f (Bool.xor s t) 0 0
    | .num s m e, .num t n d =>
      let sg := Bool.xor s t
      if n = 0 then
        if m = 0 then fInvalid f else ((if sg then f.signW else 0) + f.infBits, { dz := true })
      else
        let k := 2 * f.mb + 4
        let w := m * 2 ^ k
        let st := if w % n = 0 then 0 else 1
        fPack f sg (2 * (w / n) + st) (e - d - k - 1)
    | _, _ => fInvalid f

/-- Integer square root, one binary digit at a time from bit `k - 1` down. -/
def isqrtBits (n : Nat) : Nat → Nat → Nat
  | 0, r => r
  | k + 1, r =>
    let c := r + 2 ^ k
    isqrtBits n k (if c * c ≤ n then c else r)

/-- floor (sqrt n). -/
def isqrt (n : Nat) : Nat := isqrtBits n (Nat.log2 n / 2 + 1) 0

/-- Square root. -/
def fSqrt (f : Fmt) (x : Nat) : Nat × FFlags :=
  match fUnpack f x with
  | .nan sig => fNanOut f sig
  | .inf s => if s then fInvalid f else fInf f false
  | .num s m e =>
    if m = 0 then fPack f s 0 0
    else if s then fInvalid f
    else
      let odd := decide (e % 2 ≠ 0)
      let m1 := if odd then 2 * m else m
      let e1 := if odd then e - 1 else e
      let w := m1 * 2 ^ (2 * (f.mb + 2))
      let r := isqrt w
      let st := if r * r = w then 0 else 1
      fPack f false (2 * r + st) (e1 / 2 - (f.mb + 2 : Nat) - 1)

/-- Signed value of a number on a common exponent, for comparison. -/
def cmpVal : FVal → FVal → Option (Int × Int)
  | .num s m e, .num t n d =>
    let q := min e d
    some (sgn s (m * 2 ^ (e - q).toNat), sgn t (n * 2 ^ (d - q).toNat))
  | .inf s, .inf t => some (sgn s 1, sgn t 1)
  | .inf s, .num _ _ _ => some (sgn s 1, 0)
  | .num _ _ _, .inf t => some (0, sgn t 1)
  | _, _ => none

/-- a = b; invalid only for a signalling NaN (R144). -/
def fEq (f : Fmt) (x y : Nat) : Bool × FFlags :=
  let a := fUnpack f x
  let b := fUnpack f y
  match cmpVal a b with
  | some (u, v) => (decide (u = v), {})
  | none => (false, { nv := (nanOf a b).getD false })
/-- a < b; invalid for any NaN. -/
def fLt (f : Fmt) (x y : Nat) : Bool × FFlags :=
  match cmpVal (fUnpack f x) (fUnpack f y) with
  | some (u, v) => (decide (u < v), {})
  | none => (false, { nv := true })
/-- a ≤ b; invalid for any NaN. -/
def fLe (f : Fmt) (x y : Nat) : Bool × FFlags :=
  match cmpVal (fUnpack f x) (fUnpack f y) with
  | some (u, v) => (decide (u ≤ v), {})
  | none => (false, { nv := true })
/-- Either operand is a NaN; invalid only for a signalling one. -/
def fUn (f : Fmt) (x y : Nat) : Bool × FFlags :=
  match nanOf (fUnpack f x) (fUnpack f y) with
  | some sig => (true, { nv := sig })
  | none => (false, {})

/-- An integer as a number of the format. -/
def fOfInt (f : Fmt) (v : Int) : Nat × FFlags := fPack f (decide (v < 0)) v.natAbs 0
/-- `v · 2^e` as a number of the format. -/
def fOfScaled (f : Fmt) (v e : Int) : Nat × FFlags := fPack f (decide (v < 0)) v.natAbs e

/-- A finite number rounded to an integer: toward zero, or to nearest even; and whether the value changed. -/
def fInt (near : Bool) (s : Bool) (m : Nat) (e : Int) : Int × Bool :=
  if 0 ≤ e then (sgn s (m * 2 ^ e.toNat), false)
  else
    let sh := (-e).toNat
    let q := if near then rne m sh else m / 2 ^ sh
    (sgn s q, m % 2 ^ sh != 0)

/-- Conversion to a 32-bit signed integer (R145). -/
def fToI32 (f : Fmt) (near : Bool) (x : Nat) : Word × FFlags :=
  match fUnpack f x with
  | .nan _ => (0, { nv := true })
  | .inf s => (if s then 0x80000000 else 0x7FFFFFFF, { nv := true })
  | .num s m e =>
    let r := fInt near s m e
    if r.1 ≥ 2 ^ 31 then (0x7FFFFFFF, { nv := true })
    else if r.1 < -(2 ^ 31) then (0x80000000, { nv := true })
    else (BitVec.ofInt 32 r.1, { nx := r.2 })

/-- Conversion between formats. -/
def fConv (f g : Fmt) (x : Nat) : Nat × FFlags :=
  match fUnpack f x with
  | .nan sig => fNanOut g sig
  | .inf s => fInf g s
  | .num s m e => fPack g s m e

/-- The number is finite: neither an infinity nor a NaN. -/
def fFinite (f : Fmt) (x : Nat) : Bool := (x / 2 ^ f.mb) % 2 ^ f.eb != 2 ^ f.eb - 1
/-- The number is a NaN. -/
def fIsNan (f : Fmt) (x : Nat) : Bool := !(fFinite f x) && x % 2 ^ f.mb != 0
/-- Magnitude. -/
def fAbs (f : Fmt) (x : Nat) : Nat := x % f.signW

/-! Operators on binary32 words without the flags, for the loop engine. -/

/-- x + y. -/
def fa (x y : Word) : Word := BitVec.ofNat 32 (fAdd f32 x.toNat y.toNat).1
/-- x - y. -/
def fs (x y : Word) : Word := BitVec.ofNat 32 (fSub f32 x.toNat y.toNat).1
/-- x · y. -/
def fm (x y : Word) : Word := BitVec.ofNat 32 (fMul f32 x.toNat y.toNat).1
/-- x ÷ y. -/
def fd (x y : Word) : Word := BitVec.ofNat 32 (fDiv f32 x.toNat y.toNat).1
/-- x < y. -/
def flt (x y : Word) : Bool := (fLt f32 x.toNat y.toNat).1
/-- x ≤ y. -/
def fle (x y : Word) : Bool := (fLe f32 x.toNat y.toNat).1
/-- -x. -/
def fneg (x : Word) : Word := x ^^^ 0x80000000
/-- |x|. -/
def fabs (x : Word) : Word := x &&& 0x7FFFFFFF
/-- A signed integer as binary32. -/
def fofI (v : Int) : Word := BitVec.ofNat 32 (fOfInt f32 v).1
/-- `v · 2^e` as binary32. -/
def fofS (v e : Int) : Word := BitVec.ofNat 32 (fOfScaled f32 v e).1
/-- Neither infinite nor NaN. -/
def ffin (x : Word) : Bool := fFinite f32 x.toNat
/-- Limit to the range lo..hi. -/
def fclamp (lo hi x : Word) : Word := if flt x lo then lo else if flt hi x then hi else x

/-! ## Natural logarithm (R353) -/

/-- Twice the area tangent of `z / 2^p`, in units of 2^-p: the power series from the term of degree 2k + 1 on; `w` is the power of the term. -/
def atanhSum (p z2 : Nat) : Nat → Nat → Nat → Nat
  | 0, _, _ => 0
  | fuel + 1, k, w => 2 * w / (2 * k + 1) + atanhSum p z2 fuel (k + 1) (w * z2 / 2 ^ p)

/-- ln of the quotient n ÷ d, between 1 and 2, in units of 2^-p. -/
def lnSmall (p n d : Nat) : Nat :=
  let z := (n - d) * 2 ^ p / (n + d)
  atanhSum p (z * z / 2 ^ p) 128 0 z

/-- ln of m · 2^e in units of 2^-320, for m above 0: far more digits than the rounding to binary64 can ask for. -/
def lnFix (m : Nat) (e : Int) : Int :=
  let l := Nat.log2 m
  Int.ofNat (lnSmall 320 m (2 ^ l)) + (e + Int.ofNat l) * Int.ofNat (lnSmall 320 2 1)

/-- The natural logarithm, rounded to nearest. -/
def fLn (f : Fmt) (a : Nat) : Nat × FFlags :=
  match fUnpack f a with
  | .nan g => fNanOut f g
  | .inf s => if s then fInvalid f else fInf f false
  | .num s m e =>
    if m = 0 then fInf f true
    else if s then fInvalid f
    else
      let v := lnFix m e
      fPack f (decide (v < 0)) v.natAbs (-320)

end Sys2Proof.Machine
end

