-- ==== Sys2Proof/Machine/Flags.lean ====
section
/-! DEFINITION. Saturation, overflow and the CSR bits that go with a result (R88, R121 to R145). -/

namespace Sys2Proof.Machine

/-- sat32 (R121): the clamped value, and whether it clamped. -/
def sat32 (v : Int) : Word × Bool :=
  let w := clampI (-(2 ^ 31)) (2 ^ 31 - 1) v
  (BitVec.ofInt 32 w, decide (w ≠ v))
/-- satu32 (R121). -/
def satu32 (v : Int) : Word × Bool :=
  let w := clampI 0 (2 ^ 32 - 1) v
  (BitVec.ofInt 32 w, decide (w ≠ v))
/-- A CSR bit, set where a condition holds. -/
def csrIf (b : Bool) (m : Word) (d : Nat) : List (Nat × Res) := if b then [(d, .csrOr m)] else []
/-- A result of distance `d` with SAT where it clamped. -/
def satRes (rd : RegNo) (d : Nat) (v : Word × Bool) : EOut := results ((d, .g rd v.1) :: csrIf v.2 csrSat d)
/-- A signed result lies outside the 32-bit range (R125). -/
def ovf32 (v : Int) : Bool := decide (v < -(2 ^ 31)) || decide (2 ^ 31 ≤ v)
/-- A result of distance 1 with OV. -/
def ovRes (rd : RegNo) (v : Int) : EOut := results ((1, .g rd (BitVec.ofInt 32 v)) :: csrIf (ovf32 v) csrOv 1)

/-- CSR bits of a binary32 operation (R88, R144). -/
def fCsr (f : FFlags) : Word :=
  (if f.nv then 0x100 else 0) ||| (if f.dz then 0x80 else 0) ||| (if f.ov then 0x40 else 0) ||| (if f.uf then 0x20 else 0) |||
    (if f.nx then 0x10 else 0)
/-- Results of a binary32 operation into a g register. -/
def fRes (rd : RegNo) (r : Nat × FFlags) : Option (List Res) := some [.g rd (BitVec.ofNat 32 r.1), .csrOr (fCsr r.2)]
/-- Results of a binary32 comparison into a b register. -/
def fCmp (bd : RegNo) (r : Bool × FFlags) : Option (List Res) := some [.b bd r.1, .csrOr (fCsr r.2)]

/-- Quotient, remainder and CSR bit of DIVU (R132, R133). -/
def divU (a b : Word) : Word × Word × Word :=
  if b = 0 then (0xFFFFFFFF, a, csrDz) else (a / b, a % b, 0)
/-- Quotient, remainder and CSR bit of DIVS (R132, R133). -/
def divS (a b : Word) : Word × Word × Word :=
  if b = 0 then (if a.toInt < 0 then 0x80000000 else 0x7FFFFFFF, a, csrDz)
  else if a = 0x80000000 ∧ b = 0xFFFFFFFF then (0x7FFFFFFF, 0, csrOv)
  else (BitVec.ofInt 32 (a.toInt.tdiv b.toInt), BitVec.ofInt 32 (a.toInt.tmod b.toInt), 0)

/-- Quotient, remainder and CSR bit of DIV64U (R143, R145); `lo` is g[RA]. -/
def div64U (hi lo b : Word) : Word × Word × Word :=
  if b = 0 then (0xFFFFFFFF, lo, csrDz)
  else
    let n := hi.toNat * 2 ^ 32 + lo.toNat
    if 2 ^ 32 ≤ n / b.toNat then (0xFFFFFFFF, 0, csrOv)
    else (BitVec.ofNat 32 (n / b.toNat), BitVec.ofNat 32 (n % b.toNat), 0)
/-- Quotient, remainder and CSR bit of DIV64S (R143, R145). -/
def div64S (hi lo b : Word) : Word × Word × Word :=
  let n : Int := hi.toInt * 2 ^ 32 + lo.toNat
  if b = 0 then (if n < 0 then 0x80000000 else 0x7FFFFFFF, lo, csrDz)
  else
    let q := n.tdiv b.toInt
    if 2 ^ 31 ≤ q then (0x7FFFFFFF, 0, csrOv)
    else if q < -(2 ^ 31) then (0x80000000, 0, csrOv)
    else (BitVec.ofInt 32 q, BitVec.ofInt 32 (n.tmod b.toInt), 0)

/-- The register after one, for a pair; the pair of g30 is g31. -/
def nextReg (r : RegNo) : RegNo := r + 1

/-- floor((v + 2^31) / 2^32), the rounding of MULQ and ASATQ. -/
def roundHi (v : Int) : Int := (v + 2 ^ 31) / 2 ^ 32

end Sys2Proof.Machine
end

