-- ==== Sys2Proof/Machine/EvxSys.lean ====
section
/-! DEFINITION. Completion of results, illegal instructions, the abandonment of a task, event triggers and event
tasks, memory errors and the scrub (R36, R37, R64 to R69, R74, R99 to R102, R111, R113 to R118). -/

namespace Sys2Proof.Machine

/-- The results due at the start of the core's next cycle complete (R99, R100). -/
def execResultComplete (c : CoreId) (s : State) : Answer :=
  .next (s.updCore c fun k => k.setCtx (k.ctx.settle k.cyc))

/-- Cost of an emulated opcode (Table 3-13); 0 for an opcode that does not trap. -/
def emulCost (op : Nat) : Nat :=
  if op = 0x38 then 96 else if op = 0x39 then 104 else if op = 0x3A then 180 else if op = 0x3B then 210
  else if op = 0x3C then 88 else if op = 0x3D then 92 else if op = 0x3E then 140 else 0

/-- A word that no row assigns is an illegal instruction (R118): at issue, or for opcodes 16#38 to 16#3E after the trap
with its row cost (R143). A word that is assigned is no illegal instruction and changes nothing here. -/
def execIllegalInstruction (c : CoreId) (w : Word) (s : State) : Answer :=
  .next (
    if (decode c w).isSome then s
    else if emulCost (w.toNat / 2 ^ 26) = 0 then issue s c (.illegalInstruction c w) fun _ => .fault 0x2002 0 0
    else emulate s c (.illegalInstruction c w) (emulCost (w.toNat / 2 ^ 26)) fun _ => none)

/-- The cycles that an abandonment takes: at most 64, and at least the 8 of the switch back from an event task or of the next due task's
start, which lie within them (R62, R74, R113). -/
def abandonCycles (s : State) (c : CoreId) (cycles : Nat) : Nat :=
  let goes := match taskList s c with | some t => (nextDue t s.tick.n (s.cores[c].pos + 1)).isSome | none => false
  max (min cycles 64) (if s.cores[c].inEvt || goes then 8 else 0)

/-- The abandonment of a faulting task completes at the instant `at_`, `cycles` after the detection (R74, R113): an event task
gives way to the interrupted task, a cyclic task to the next due task. -/
def execTaskAbandon (c : CoreId) (cycles at_ : Nat) (s : State) : Answer :=
  .next (
    if s.cores[c].st ≠ .aband then s
    else
      let s := (setNow s at_).updCore c fun k => { k with cyc := k.abCyc + abandonCycles s c cycles, endTs := at_ }
      if s.cores[c].inEvt then
        if s.cores[c].resume then s.updCore c fun k => { k with st := .run, inEvt := false, resume := false, used := k.cyc }
        else goIdle s c
      else startFrom s c (s.cores[c].pos + 1) 0)

/-- The core and the event slot that a source is bound to (R64). -/
def slotOf (s : State) (src : Nat) : Option (CoreId × Fin 8 × TList × TaskE) :=
  match s.prog with
  | none => none
  | some g =>
    (coreIds.flatMap fun c =>
      match g.lists.find? fun t => t.core = c.val with
      | none => []
      | some t => (List.finRange 8).filterMap fun k =>
          match t.slots[k.val]? with
          | some e => if e.ph = src then some (c, k, t, e) else none
          | none => none).head?

/-- The event router takes triggers only in RUN as SOLO or ACTIVE (R65). -/
def routes (s : State) : Bool := decide (s.mode = .run) && drives s.role

/-- Deferral of a trigger beyond the slot's rate (R66, Table 2-9). -/
def deferRate (s : State) (c : CoreId) (k : Fin 8) : State :=
  evb (orw (bump s (K.TICKk_EVT_DEFER c k)) K.TICK_STATUS 0xC) 0x1003 (p4 c.val ++ p4 k.val ++ p8 s.tick.n)

/-- A trigger of a source at the instant `at_` (R65, R66). `x` is the cycle count of the core then. A trigger in the interval of the
Phase O instant belongs to Phase O (R51). -/
def triggerAt (s : State) (src at_ x : Nat) : State :=
  if !(routes s) then s
  else
    match slotOf s src with
    | none => s
    | some (c, k, t, e) =>
      let sl := s.cores[c].slots[k]
      let cnt := satInc sl.count
      let ts := if sl.pending then sl.ts else at_
      let inL := decide (s.tick.phase = .l) && decide (at_ < phaseOInstant s)
      let s := writeMem s (t.evrec + 16 * k.val) (leBytes 8 ts ++ leBytes 2 src ++ [0, 0] ++ leBytes 4 cnt.toNat)
      let early := inL && decide (e.dr ≤ sl.rel)
      let s := s.updCore c fun q =>
        { q with slots := q.slots.set k { sl with pending := true, count := cnt, ts := ts, held := sl.held || early } k.isLt,
                 evtFlags := q.evtFlags ||| ((1 : BitVec 8) <<< k.val), evtPend := q.evtPend ||| ((1 : BitVec 8) <<< k.val),
                 cyc := if q.st = .idle then max q.cyc x else q.cyc }
      let s := if early then deferRate s c k else s
      if inL && s.cores[c].st = .idle && !sl.pending then deferLate s c else s

/-- A happening waits for the tick that begins at the next edge (R51, R54). -/
def holdLate (s : State) (c : Late) : State := { s with tick := { s.tick with late := s.tick.late ++ [c] } }

/-- A happening at the instant `at_`: it acts now, or, at the next edge or after it, in the tick that begins there (R51, R54). -/
def actAt (s : State) (at_ : Nat) (c : Late) (act : State → State) : State := if beyondEdge s at_ then holdLate s c else act (setNow s at_)

/-- A trigger at the present instant; one at the next edge or after it belongs to the tick that begins there (R51). -/
def trigger (s : State) (src x : Nat) : State := if beyondEdge s s.now then holdLate s (.eventTrigger src s.now x) else triggerAt s src s.now x

/-- A source triggers at the instant `at_` (R65). -/
def execEventTrigger (src : Nat) (at_ : Nat) (cyc : Nat) (s : State) : Answer := .next (trigger (setNow s at_) src cyc)

/-- The slot that a core takes next: the lowest pending one that is released in this tick (R66). -/
def takeSlot (s : State) (c : CoreId) : Option (Fin 8) :=
  (List.finRange 8).find? fun k => s.cores[c].slots[k].pending && !s.cores[c].slots[k].held

/-- No store of the core has its distance of 2 outstanding (Table 3-8). -/
def storesDone (s : State) (c : CoreId) : Bool :=
  let j := s.cores[c].cyc
  (s.mem.stq.all fun t => decide (t.core ≠ c.val) || decide (t.cyc + 2 ≤ j)) && s.cores[c].mbxStq.all fun e => decide (e.1 + 2 ≤ j)

/-- The core is at a quiet boundary, or idle (R67): no result distance outstanding, no delay slot next, no event task running. -/
def quiet (s : State) (c : CoreId) : Bool :=
  let k := s.cores[c]
  decide (k.st = .idle) ||
    (decide (k.st = .run) && !k.inEvt && decide ((k.ctx.settle k.cyc).flight = []) && decide (k.ctx.delay = .none) && storesDone s c)

/-- The event task of a high-priority filter's source is released: the entries of its slot count as taken (R420). Sources
16#0100 + 64 k + f. -/
def hpTaken (s : State) (src : Nat) : State :=
  if h : 0x100 ≤ src ∧ src < 0x200 then
    let m : Fin 4 := ⟨(src - 0x100) / 64, by omega⟩
    let f := (src - 0x100) % 64
    let j := ((List.range 64).filter fun i => decide (field (rw s (K.BUSk_FDEST m i)) 7 6 = 3)).findIdx fun i => decide (i = f)
    let mark := fun (i : Nat) (e : Option HpEntry) => if i / 2 = j then e.map fun e => { e with taken := true } else e
    { s with bus := s.bus.set m { s.bus[m] with hp := ((List.range 8).zip s.bus[m].hp).map fun q => mark q.1 q.2 } m.isLt }
  else s

/-- Core `c` takes its released event; `at_` is the instant of the event task's first instruction and `cyc` the cycle at which an
idle core takes it (R66, R67, R69). -/
def execEventTake (c : CoreId) (at_ : Nat) (cyc : Nat) (s : State) : Answer :=
  let s := setNow s at_
  .next (
    if !(routes s && decide (s.tick.phase = .l) && quiet s c) then s
    else
      let idle := decide (s.cores[c].st = .idle)
      let s := if idle then deferLate (s.updCore c fun k => { k with cyc := max k.cyc cyc }) c else s
      match taskList s c, takeSlot s c with
      | some t, some k =>
        match t.slots[k.val]? with
        | none => s
        | some e =>
          let sl := s.cores[c].slots[k]
          let s := maxw (bump (hpTaken s e.ph) (K.TICKk_EVT_CNT c k)) (K.TICKk_EVT_LAT_MAX c) ((s.now - sl.ts) * 10)
          let j := s.cores[c].cyc
          let s := s.updCore c fun q =>
            let q := { q with task := q.task.settle q.cyc }
            { q with st := .run, inEvt := true, resume := !idle, slot := k.val, cyc := q.cyc + 8,
                     slots := q.slots.set k { sl with pending := false, count := 0, rel := sl.rel + 1 } k.isLt,
                     evtPend := q.evtPend &&& ~~~((1 : BitVec 8) <<< k.val),
                     evt := startCtx s c t e q.cyc }
          startLoad s c t e j
      | _, _ => s)

/-- The executive runs: the service core executes it (R37, R232). -/
def executiveRuns (s : State) : Bool := ticking s.mode || (decide (s.mode = .cedar) && decide (s.start.source = 2))

/-- The executive scrubs the next line of the shared SRAM through port F8 (R37). -/
def execScrubLine (s : State) : Answer :=
  .next (
    if !(executiveRuns s) then s
    else
      let base := 0x10000000 + s.mem.scrub * 64
      let s := (List.range 8).foldl (fun s i => eccRead s (base + 8 * i) 8 0) s
      s.updMem fun m => { m with scrub := (m.scrub + 1) % 131072 })

end Sys2Proof.Machine
end

