-- ==== Sys2Proof/Machine/Enc.lean ====
section
/-! DEFINITION. Encoder ports and the angle broadcast (R290 to R319, R403). -/

namespace Sys2Proof.Machine

/-- Update one port. -/
def State.updEnc (s : State) (k : Fin 4) (f : EncPort → EncPort) : State :=
  { s with enc := { s.enc with ports := s.enc.ports.set k (f s.enc.ports[k]) k.isLt } }

/-- Every port number. -/
def encIds : List (Fin 4) := [0, 1, 2, 3]

/-- Nearest integer to a quotient, ties away from zero (R301). -/
def roundDiv (num : Int) (den : Nat) : Int :=
  if num < 0 then -Int.ofNat ((2 * num.natAbs + den) / (2 * den)) else Int.ofNat ((2 * num.natAbs + den) / (2 * den))

/-- ENABLE and MODE of a port, and its counts per revolution (R294). -/
def encOn (s : State) (k : Fin 4) : Bool := rb s (K.ENCk_ENABLE k) 0
/-- MODE. -/
def encMode (s : State) (k : Fin 4) : Nat := rn s (K.ENCk_MODE k)
/-- CPR. -/
def encCpr (s : State) (k : Fin 4) : Nat := 4 * rn s (K.ENCk_LINES k)

/-- LEAD in µs (R297); 0 in incremental mode. -/
def encLead (s : State) (k : Fin 4) : Nat :=
  if encMode s k = 0 then 0
  else
    let bits := rn s (K.ENCk_DATABITS k) + (if encMode s k = 2 then 12 else 1)
    (bits * rn s (K.ENCk_CLKDIV k) + rn s (K.ENCk_SDLY k) + 100 + 99) / 100

/-! ## Errors and homing (R292, R293, R300, R304) -/

/-- An error of an enabled port (ERRKIND of Table 9-3): reported, and an incremental port needs a new homing. -/
def encError (s : State) (k : Fin 4) (kind : Nat) : State :=
  if !(encOn s k) then s
  else
    let s := s.updEnc k fun p => { p with err := if p.err = 0 then kind else p.err, homed := if encMode s k = 0 then false else p.homed }
    evb s 0x4105 (p4 k ++ p4 kind)

/-- A decoding error (R292). -/
def encIll (s : State) (k : Fin 4) : State :=
  if encOn s k then encError (orw (bump s (K.ENCk_ILL_CNT k)) (K.ENCk_STATUS k) 0x2) k 1 else s
/-- A line break on A, B or data (R293). -/
def encLine (s : State) (k : Fin 4) : State :=
  if encOn s k then encError (orw (bump s (K.ENCk_LINE_CNT k)) (K.ENCk_STATUS k) 0x4) k 2 else s

/-- A count modulo CPR. -/
def modCpr (s : State) (k : Fin 4) (v : Int) : Int := if encCpr s k = 0 then 0 else v % Int.ofNat (encCpr s k)

/-- The index is taken at count `c` (R295, R300). -/
def encTakeIndex (s : State) (k : Fin 4) (c : Word) : State :=
  let s := s.updEnc k fun p => { p with zpos := c }
  let p := s.enc.ports[k]
  if !(encOn s k) || rn s (K.ENCk_ZMODE k) ≠ 1 || p.brkZ || p.brkA || p.brkB then s
  else if !p.homed then s.updEnc k fun p => { p with homed := true, countHome := c }
  else
    let m := Int.ofNat (encCpr s k)
    let r := modCpr s k (c.toInt - p.countHome.toInt)
    let d := if 2 * r < m then r else r - m
    if d = 0 then s
    else
      let pay := p4 k ++ leBytes 4 (BitVec.ofInt 32 d).toNat
      let s := s.updEnc k fun p => { p with countHome := c }
      let s := ev (orw (bump s (K.ENCk_ZCORR_CNT k)) (K.ENCk_STATUS k) 0x10) 0x4103 pay
      if rn s (K.ENCk_ZTOL k) < d.natAbs then
        ev (orw (bump s (K.ENCk_ZERR_CNT k)) (K.ENCk_STATUS k) 0x20) 0x4104 pay
      else s

/-! ## Pins -/

/-- Position of a state of (A, B) in the order counting up: 00, 10, 11, 01. -/
def quadPos (a b : Bool) : Nat := match a, b with | false, false => 0 | true, false => 1 | true, true => 2 | false, true => 3

/-- A transition at `ts` follows the last one of its track by less than 100 ns (R292). -/
def encTooFast (last : Option Nat) (ts : Nat) : Bool := last.any fun t => decide (ts < t + 10)

/-- The other track changes in the interval of the last counted transition: both changed in one interval, so that transition is no counted one
(R292). Assumption 129. -/
def encUncount (p : EncPort) : EncPort :=
  match p.trans with
  | [] => p
  | t :: r =>
    let d := t.count - (match r with | u :: _ => u.count | [] => 0)
    { p with count := p.count - BitVec.ofInt 32 d, trans := r, lastTs := match r with | u :: _ => u.ts | [] => 0 }

/-- One track changes, in the direction `up` (R292, R295). -/
def encCount (s : State) (k : Fin 4) (kind : Nat) (up z : Bool) : State :=
  let p := s.enc.ports[k]
  let c := if up then p.count + 1 else p.count - 1
  let e := (match p.trans with | t :: _ => t.count | [] => 0) + (if up then 1 else -1)
  let fast := encTooFast (if kind < 2 then p.lastA else p.lastB) s.now
  let s := s.updEnc k fun p =>
    { p with count := c, trans := { ts := s.now, kind := kind, count := e } :: p.trans, lastTs := s.now, zFound := z }
  let s := if fast then encIll s k else s
  if z && !p.zFound && up then encTakeIndex s k c else s

/-- The tracks that change at this instant have had their transition. -/
def encStamp (s : State) (k : Fin 4) (da db : Bool) : State :=
  s.updEnc k fun p => { p with lastA := if da then some s.now else p.lastA, lastB := if db then some s.now else p.lastB }

/-- The filtered states become (a, b) at the present instant (R292, R294). -/
def encTransition (k : Fin 4) (a b z : Bool) (s : State) : State :=
  let p := s.enc.ports[k]
  let da := p.a != a
  let db := p.b != b
  let levels := s.updEnc k fun p => { p with a := a, b := b }
  if !s.enc.on || encMode s k ≠ 0 || (!da && !db) then levels
  else
    let other := if da then p.lastB else p.lastA
    let kind := if da then (if a then 0 else 1) else (if b then 2 else 3)
    let up := decide ((quadPos p.a p.b + 1) % 4 = quadPos a b) != rb s (K.ENCk_INVERT k) 0
    let s :=
      if da && db then encIll levels k
      else if other = some s.now then encIll (levels.updEnc k encUncount) k
      else encCount levels k kind up z
    encStamp s k da db

/-- The filtered states become (a, b) at the instant `at_`; `z` is Z after the filter then (R292, R294, R295). -/
def execEncTransition (k : Fin 4) (a b z : Bool) (at_ : Nat) (s : State) : Answer :=
  .next (actAt s at_ (.encTransition k a b z at_) (encTransition k a b z))

/-- A rising Z edge (R295): timestamped, triggers its source; the index is taken here where the counted transition at this
instant went up, and else at the next counted transition that finds Z active. -/
def encIndex (k : Fin 4) (cyc : Nat) (s : State) : State :=
  if !s.enc.on || encMode s k ≠ 0 then s
  else
    let p := s.enc.ports[k]
    let s := s.updEnc k fun p => { p with zts := s.now, zseen := true }
    let here := match p.trans with
      | t :: u :: _ => decide (t.ts = s.now) && decide (u.count < t.count)
      | [t] => decide (t.ts = s.now) && decide (0 < t.count)
      | [] => false
    let s := if here && !p.zFound then (encTakeIndex s k p.count).updEnc k fun p => { p with zFound := true } else s
    trigger s (0x0300 + k.val) cyc

/-- A rising Z edge at the instant `at_`. -/
def execEncIndex (k : Fin 4) (at_ : Nat) (cyc : Nat) (s : State) : Answer := .next (actAt s at_ (.encIndex k at_ cyc) (encIndex k cyc))

/-- A receiver reports a line break (R293); `line` is 0 A, 1 B or data, 2 Z. -/
def encLineBreak (k : Fin 4) (line : Fin 3) (s : State) : State :=
  if line = 2 then
    let s := s.updEnc k fun p => { p with brkZ := true }
    if encOn s k && encMode s k = 0 then orw s (K.ENCk_STATUS k) 0x100 else s
  else
    let s := s.updEnc k fun p => if line = 0 then { p with brkA := true } else { p with brkB := true }
    if line = 1 || encMode s k = 0 then encLine s k else s

/-- A line break at the instant `at_`. -/
def execEncLineBreak (k : Fin 4) (line : Fin 3) (at_ : Nat) (s : State) : Answer :=
  .next (actAt s at_ (.encLineBreak k line at_) (encLineBreak k line))

/-- A broken line is driven again (R293). -/
def encLineReturn (k : Fin 4) (line : Fin 3) (s : State) : State :=
  s.updEnc k fun p => if line = 0 then { p with brkA := false } else if line = 1 then { p with brkB := false } else { p with brkZ := false }

/-- A broken line is driven again at the instant `at_`. -/
def execEncLineReturn (k : Fin 4) (line : Fin 3) (at_ : Nat) (s : State) : Answer :=
  .next (actAt s at_ (.encLineReturn k line at_) (encLineReturn k line))

/-- A break that makes the port erroneous (R293). -/
def encBroken (s : State) (k : Fin 4) : Bool :=
  let p := s.enc.ports[k]
  p.brkB || (encMode s k = 0 && p.brkA)

/-! ## Serial modes (R296 to R298, R303) -/

/-- The serial request starts LEAD before the next edge; its first clock transition is the sample instant (R297). -/
def execSerialRequest (k : Fin 4) (s : State) : Answer :=
  .next (
    if !(encOn s k) || encMode s k = 0 || !s.tick.seqOn then s
    else
      let s := setNow s (nextEdge s - 100 * encLead s k)
      s.updEnc k fun p => { p with req := some s.now })

/-- CRC of a BiSS-C frame (R296): polynomial x^6 + x + 1, start value 0, sent inverted. -/
def bissCrc (bits : List Bool) : Nat := 63 - bits.foldl (fun r b => crcStepMsb 6 0x03 r b) 0

/-- The bits of a number, most significant first. -/
def bitsMsb : Nat → Nat → List Bool
  | 0, _ => []
  | n + 1, v => v.testBit n :: bitsMsb n v

/-- Gray decoding of `n` bits. -/
def grayDecode (n v : Nat) : Nat := (List.range n).foldl (fun r i => r ^^^ (v / 2 ^ i)) 0

/-- Angle of serial data (R299). -/
def serialAngle (s : State) (k : Fin 4) (data : Nat) : Word :=
  let st := data % 2 ^ rn s (K.ENCk_STBITS k)
  let v := BitVec.ofNat 32 (st * 2 ^ (32 - rn s (K.ENCk_STBITS k)))
  (if rb s (K.ENCk_INVERT k) 0 then -v else v) + rw s (K.ENCk_ZERO_OFS k)

/-- Why a completed frame is bad, as ERRKIND (R298); 0 for a good one. -/
def sampleKind (s : State) (k : Fin 4) (start : Bool) (data : Nat) (nE nW : Bool) (crc : BitVec 6) : Nat :=
  if s.enc.ports[k].brkB then 2
  else if encMode s k = 1 then 0
  else if !start then 4
  else if bissCrc (bitsMsb (rn s (K.ENCk_DATABITS k)) data ++ [nE, nW]) ≠ crc.toNat then 3
  else if !nE then 5
  else 0

/-- nW = 0 of a BiSS-C frame with a valid CRC sets WARN, whatever nE says (R298). -/
def sampleWarn (s : State) (k : Fin 4) (kind : Nat) (nW : Bool) : State :=
  if decide (encMode s k = 2) && !nW && (kind = 0 || kind = 5) then (orw s (K.ENCk_STATUS k) 0x40).updEnc k fun p => { p with warn := true } else s

/-- A serial frame is complete (R298). -/
def serialSample (k : Fin 4) (start : Bool) (data : BitVec 40) (nE nW : Bool) (crc : BitVec 6) (s : State) : State :=
  match s.enc.ports[k].req with
  | none => s
  | some ts =>
    let s := s.updEnc k fun p => { p with req := none }
    let n := rn s (K.ENCk_DATABITS k)
    let raw := data.toNat % 2 ^ n
    let kind := sampleKind s k start raw nE nW crc
    let s := sampleWarn s k kind nW
    if kind ≠ 0 then encError (orw (bump s (K.ENCk_SER_CNT k)) (K.ENCk_STATUS k) 0x8) k kind
    else
      let d := if encMode s k = 1 && rn s (K.ENCk_CODE k) = 1 then grayDecode n raw else raw
      s.updEnc k fun p => { p with samples := (ts, serialAngle s k d) :: p.samples, data := d, good := true, lastTs := ts }

/-- A serial frame is complete at the instant `at_`. `start`: the start bit arrived in time; nE and nW are the bits as sent. -/
def execSerialSample (k : Fin 4) (start : Bool) (data : BitVec 40) (nE nW : Bool) (crc : BitVec 6) (at_ : Nat) (s : State) : Answer :=
  .next (actAt s at_ (.serialSample k start data nE nW crc at_) (serialSample k start data nE nW crc))

/-! ## Enabling and configuration (R291, R294, R297, R317) -/

/-- The count is set to 0; the counts of earlier transitions keep their distances from it (R294, R316). -/
def encZero (s : State) (k : Fin 4) : State := s.updEnc k fun p => { p with count := 0, homed := false, countHome := 0 }

/-- A write of ENABLE; answers whether it was applied (R297, R300, R317). -/
def encEnable (s : State) (k : Fin 4) (v : Bool) : State × Bool :=
  if v then
    if encMode s k ≠ 0 ∧ periodT s < encLead s k + rn s (K.ENCk_TMONO k) then (orw s (K.ENCk_STATUS k) 0x400, false)
    else if encOn s k then (s, true)
    else
      let s := sw s (K.ENCk_ENABLE k) 1
      let s := s.updEnc k fun p =>
        { p with homed := decide (rn s (K.ENCk_ZMODE k) = 0), countHome := 0, samples := [], good := false, coasted := 0, req := none }
      let s := if encBroken s k then encLine s k else s
      (if s.enc.ports[k].brkZ && encMode s k = 0 then orw s (K.ENCk_STATUS k) 0x100 else s, true)
  else (sw s (K.ENCk_ENABLE k) 0, true)

/-- A write of ENC[k].ENABLE takes effect. -/
def execEncEnableWrite (k : Fin 4) (v : Bool) (s : State) : Answer := .next (encEnable s k v).1

/-- A write of MODE, or of INVERT where `inv` is set: rejected while the port is enabled or out of range, and else it sets the
count to 0 (R16, R294, R317). -/
def encModeWrite (s : State) (k : Fin 4) (inv : Bool) (v : Word) : State × Bool :=
  if encOn s k || (!inv && 2 < v.toNat) then (cfgRej s 0x500, false)
  else if inv then (encZero (sw s (K.ENCk_INVERT k) (v &&& 1)) k, true)
  else ((encZero (sw s (K.ENCk_MODE k) v) k).updEnc k fun p => { p with samples := [], good := false, coasted := 0, req := none }, true)

/-- A write of MODE or INVERT takes effect. -/
def execEncModeWrite (k : Fin 4) (inv : Bool) (v : Word) (s : State) : Answer := 
  .next (written (if inv then K.ENCk_INVERT k else K.ENCk_MODE k) (encModeWrite s k inv v))

/-- The supply output of a port is on (R291). -/
def encSupplyOn (s : State) (k : Fin 4) : Bool :=
  !(rb s (K.ENCk_SUPPLY k) 0) && s.power.present && decide (s.mode ≠ .off) && decide (s.mode ≠ .reset) && decide (s.mode ≠ .dormant)

/-- An overload of a port's supply (R291). -/
def execEncSupplyOverload (k : Fin 4) (at_ : Nat) (s : State) : Answer :=
  let s := setNow s at_
  .next (if encSupplyOn s k then orw s (K.ENCk_STATUS k) 0x200 else s)

/-! ## The edge (R299 to R306, R315, R316) -/

/-- t0 of R301 among earlier entries (newest first): the earliest no more than RATE_WIN before t1, else the latest
within STILL_US of the edge. -/
def rateStart {α : Type} (tsOf : α → Nat) (t1 edge win still : Nat) (older : List α) : Option α :=
  match (older.filter fun x => decide (t1 ≤ tsOf x + win)).getLast? with
  | some x => some x
  | none => older.find? fun x => decide (edge ≤ tsOf x + still)

/-- Rate from a difference in units of 2^-32 rev times `cpr`, over a time in 10 ns units. -/
def rateOf (diff : Int) (cpr dt : Nat) : Int := if cpr = 0 ∨ dt = 0 then 0 else roundDiv (diff * 100) (cpr * dt)

/-- The rate of an incremental port (R301); none where it stands still. -/
def incRate (s : State) (k : Fin 4) (edge : Nat) : Option Int :=
  let p := s.enc.ports[k]
  let win := 100 * rn s (K.ENCk_RATE_WIN k)
  let still := 100 * rn s (K.ENCk_STILL_US k)
  match p.trans with
  | [] => none
  | t1 :: r =>
    if t1.ts + still < edge then none
    else
      match rateStart Trans.ts t1.ts edge win still (r.filter fun t => t.kind = t1.kind) with
      | none => none
      | some t0 => if t0.ts < t1.ts then some (rateOf ((t1.count - t0.count) * 2 ^ 32) (encCpr s k) (t1.ts - t0.ts)) else none

/-- The rate of a serial port (R303). -/
def serRate (s : State) (k : Fin 4) (edge : Nat) : Option Int :=
  let win := 100 * rn s (K.ENCk_RATE_WIN k)
  let still := 100 * rn s (K.ENCk_STILL_US k)
  match s.enc.ports[k].samples with
  | [] => none
  | t1 :: r =>
    if t1.1 + still < edge then none
    else
      match rateStart (fun (x : Nat × Word) => x.1) t1.1 edge win still r with
      | none => none
      | some t0 => if t0.1 < t1.1 then some (rateOf (t1.2 - t0.2).toInt 1 (t1.1 - t0.1)) else none

/-- Angle of a count, without ZERO_OFS (R299). -/
def countAngle (s : State) (k : Fin 4) (c : Int) : Int :=
  let m := encCpr s k
  if m = 0 then 0 else modCpr s k (c - s.enc.ports[k].countHome.toInt) * 2 ^ 32 / Int.ofNat m

/-- The angle of an incremental port at the edge with rate `om` (R302). -/
def incAngle (s : State) (k : Fin 4) (edge : Nat) (om : Int) : Word :=
  let p := s.enc.ports[k]
  let c := p.count.toInt
  let base := countAngle s k c
  let ext :=
    match p.trans with
    | [] => 0
    | t1 :: _ =>
      if om = 0 then 0
      else
        let sg : Int := if om < 0 then -1 else 1
        let lim := ((countAngle s k (c + sg) - base) * sg) % 2 ^ 32 - 1
        clampI (-lim) lim (roundDiv (om * Int.ofNat (edge - t1.ts)) 100)
  BitVec.ofInt 32 (base + ext) + rw s (K.ENCk_ZERO_OFS k)

/-- The angle of a serial port at the edge: extrapolated from the last good sample (R303). -/
def serAngle (s : State) (k : Fin 4) (edge : Nat) (om : Int) : Word :=
  match s.enc.ports[k].samples with
  | [] => 0
  | t1 :: _ => t1.2 + BitVec.ofInt 32 (roundDiv (om * Int.ofNat (edge - t1.1)) 100)

/-- Validity of a port at the edge (R303, R304). -/
def encValid (s : State) (k : Fin 4) : Bool :=
  let p := s.enc.ports[k]
  encOn s k && (
    if encMode s k = 0 then p.homed && decide (p.err = 0) && !(encBroken s k)
    else if p.good then decide (p.err = 0) && !(encBroken s k)
    else (decide (p.samples ≠ []) && decide (p.coasted ≤ rn s (K.ENCk_COAST k))))

/-- ERRKIND of the tick (Table 9-3). -/
def encErrKind (s : State) (k : Fin 4) : Nat :=
  let e := s.enc.ports[k].err
  if !(encOn s k) then 0 else if e ≠ 0 then e else if encBroken s k then 2 else 0

/-- One port at an edge: RESTART, rate, angle, validity, input area. -/
def encPortEdge (s : State) (k : Fin 4) : State :=
  let edge := s.now
  let inc := decide (encMode s k = 0)
  let s := if s.enc.ports[k].restartReq then
      (encZero s k).updEnc k fun p => { p with restartReq := false, homed := encOn s k && inc && decide (rn s (K.ENCk_ZMODE k) = 0) }
    else s
  let bad := encOn s k && !inc && !s.enc.ports[k].good && decide (s.enc.ports[k].samples ≠ [])
  let s := s.updEnc k fun p => { p with coasted := if p.good then 0 else if bad then p.coasted + 1 else p.coasted }
  let rate := if !(encOn s k) then none else if inc then incRate s k edge
    else if bad then some s.enc.ports[k].omega.toInt else serRate s k edge
  let still := encOn s k && rate.isNone
  let om := rate.getD 0
  let om32 : Word := BitVec.ofInt 32 om
  let th := if !(encOn s k) then 0 else if inc then incAngle s k edge om else serAngle s k edge om
  let v := encValid s k
  let was := s.enc.ports[k].valid
  let kind := encErrKind s k
  let coast := bad && v
  let s := if coast then orw s (K.ENCk_STATUS k) 0x80 else s
  let s :=
    if v && !was then
      ev s 0x4101 (p4 k ++ (if inc then leBytes 4 s.enc.ports[k].countHome.toNat else p4 (s.enc.ports[k].data % 2 ^ 32)))
    else if was && !v then
      let s := ev (orw s (K.ENCk_STATUS k) 0x1) 0x4102 (p4 k ++ p4 kind)
      if rn s K.ENC_ANGLE_PORT = k.val then orw s K.ENC_STATUS 0x1 else s
    else s
  let p := s.enc.ports[k]
  let flag := fun (b : Bool) (i : Nat) => if b then 2 ^ i else 0
  let flags := flag v 0 + flag p.homed 1 + flag still 2 + flag (decide (om < 0)) 3 + flag (decide (kind ≠ 0)) 4 + flag p.zseen 5 +
    flag p.warn 6 + flag coast 7 + flag (inc && p.brkZ) 8
  let rev := if encCpr s k = 0 then 0 else (p.count.toInt - p.countHome.toInt) / Int.ofNat (encCpr s k)
  let pos := if inc then leBytes 4 p.count.toNat ++ leBytes 4 (BitVec.ofInt 32 rev).toNat else leBytes 8 p.data
  let s := putArea s 2 k.val (leBytes 2 flags ++ leBytes 1 kind ++ [0] ++ pos ++ leBytes 4 p.zpos.toNat ++ leBytes 8 p.lastTs ++
    leBytes 8 p.zts ++ leBytes 4 th.toNat ++ leBytes 4 om32.toNat ++ padTo 8 [])
  s.updEnc k fun p => { p with theta := th, omega := om32, valid := v, err := 0, zseen := false, good := false, warn := false }

/-- A new sign of the angle port's rate (R305). -/
def encDirection (s : State) (th om : Word) : State :=
  if om = 0 then s
  else
    let sg : Int := if om.toInt < 0 then -1 else 1
    let s0 := { s with enc := { s.enc with sign := sg } }
    if s.enc.sign = 0 ∨ s.enc.sign = sg then s0
    else ev (orw (bump s0 K.ENC_REV_CNT) K.ENC_STATUS 0x2) 0x4106 (leBytes 4 th.toNat ++ leBytes 4 om.toNat)

/-- The broadcast of an edge (R306, R403): the angle port's pair, the joined angle of a follower, or the last valid pair. -/
def encBroadcast (s : State) : State :=
  let a := rn s K.ENC_ANGLE_PORT
  if h : a < 4 then
    let p := s.enc.ports[a]
    let s := if encOn s ⟨a, h⟩ then encDirection s p.theta p.omega else s
    if p.valid then sn (sw (sw s K.ENC_THETA0 p.theta) K.ENC_OMEGA p.omega) K.ENC_AVALID 1 else sn s K.ENC_AVALID 0
  else if a = 0xFE then
    match s.join.peer with
    | some j =>
      if !s.join.master && decide (j.tick + 1 = s.tick.n) && decide (s.join.st = 2) && j.flags.testBit 2 then
        sn (sw (sw s K.ENC_THETA0 (j.theta0 + j.omega * BitVec.ofNat 32 s.tick.t)) K.ENC_OMEGA j.omega) K.ENC_AVALID 1
      else sn s K.ENC_AVALID 0
    | none => sn s K.ENC_AVALID 0
  else sn s K.ENC_AVALID 0

/-- The encoders at an edge. -/
def encEdge (s : State) : State := encBroadcast (encIds.foldl encPortEdge s)

/-- Phase O: RESTART of each output area is captured (R316). -/
def encCapture (s : State) : State :=
  encIds.foldl (fun (s : State) (k : Fin 4) =>
    match getArea s 2 k.val with
    | none => s
    | some b =>
      let v := (b.getD 0 0).getLsbD 0
      s.updEnc k fun p => { p with restart := v, restartReq := p.restartReq || (v && !p.restart) }) s

/-- A port after a reset that clears it (R294). -/
def EncPort.fresh : EncPort :=
  { count := 0, trans := [], homed := false, countHome := 0, a := false, b := false, zFound := false, brkA := false, brkB := false,
    brkZ := false, zpos := 0, zts := 0, zseen := false, lastTs := 0, lastA := none, lastB := none, err := 0, req := none, samples := [], data := 0, good := false, warn := false,
    coasted := 0, valid := false, theta := 0, omega := 0, restart := false, restartReq := false, vsel24 := false }

/-- A reset of the encoder unit: counts are cleared, the pins' levels and breaks stay as they are (R294). -/
def EncPort.clear (p : EncPort) : EncPort :=
  { EncPort.fresh with a := p.a, b := p.b, zFound := p.zFound, brkA := p.brkA, brkB := p.brkB, brkZ := p.brkZ, vsel24 := p.vsel24 }

/-- A power-up, a level-2 restart, a power return and DORMANT clear the unit; `on` where it runs again. -/
def encClear (s : State) (on : Bool) : State :=
  { s with enc := { on := on, ports := s.enc.ports.map EncPort.clear, sign := 0 } }

end Sys2Proof.Machine
end

