-- ==== Sys2Proof/Machine/Loop.lean ====
section
/-! DEFINITION. Loop engine (R320 to R345), with the test signals, the capture, the gain schedule and the supervision of
the tuning unit that act at a loop's update (R346 to R352, R357, R358). -/

namespace Sys2Proof.Machine

/-- A loop's number. -/
abbrev LoopNo := Fin 96

/-- Loops that the image configures (R320); 0 without areas of code 5. -/
def nloop (s : State) : Nat :=
  match s.prog with | some g => min 96 g.nloop | none => 0

/-- Update what the engine holds of a loop. -/
def State.updRt (s : State) (n : LoopNo) (f : LoopRt → LoopRt) : State :=
  { s with loop := { s.loop with rt := s.loop.rt.set n (f s.loop.rt[n]) n.isLt } }
/-- Update a retained record. -/
def State.updLoop (s : State) (n : LoopNo) (f : LoopRec → LoopRec) : State :=
  { s with ret := { s.ret with x := { s.ret.x with loops := s.ret.x.loops.set n (f s.ret.x.loops[n]) n.isLt } } }
/-- A loop's retained record. -/
def loopRec (s : State) (n : LoopNo) : LoopRec := s.ret.x.loops[n]

/-! ## ST (Table 10-5) -/

/-- STATE: 0 DISABLED, 1 OPEN, 2 CLOSED, 3 TUNING. -/
def LoopRec.state (r : LoopRec) : Nat := (field r.st 1 0).toNat
/-- A flag of ST. -/
def LoopRec.flag (r : LoopRec) (i : Nat) : Bool := r.st.getLsbD i
/-- Set STATE. -/
def LoopRec.setState (r : LoopRec) (v : Nat) : LoopRec := { r with st := setField r.st 1 0 v }
/-- Set a flag. -/
def LoopRec.setFlag (r : LoopRec) (i : Nat) (v : Bool) : LoopRec := { r with st := setBit r.st i v }
/-- LOST. -/
def LoopRec.lost (r : LoopRec) : Nat := (field r.st 15 8).toNat
/-- Set LOST. -/
def LoopRec.setLost (r : LoopRec) (v : Nat) : LoopRec := { r with st := setField r.st 15 8 v }
/-- The state that governs an update: TRET while TUNING (R347). -/
def LoopRec.effState (r : LoopRec) : Nat := if r.state = 3 then (if r.flag 7 then 2 else 1) else r.state
/-- Back from TUNING to TRET; from CLOSED with FIRST = 1 (Table 10-7). -/
def LoopRec.leaveTuning (r : LoopRec) : LoopRec :=
  if r.state = 3 then (if r.flag 7 then (r.setState 2).setFlag 5 true else r.setState 1) else r

/-! ## Configuration (R321, R338) -/

/-- v × 10^-6 as binary32, rounded once. -/
def fMicro (v : Nat) : Word :=
  let w := v * 2 ^ 80
  BitVec.ofNat 32 (fPack f32 false (2 * (w / 1000000) + (if w % 1000000 = 0 then 0 else 1)) (-81)).1

/-- Sample time h, as binary32 (R321). -/
def loopH (s : State) (n : LoopNo) : Word := fMicro (rn s (K.LOOPk_DIV n) * periodT s)

/-- Binary32 words of a loop, by offset. -/
def loopFloats : List Nat := [0x07, 0x08, 0x09, 0x0A, 0x0B, 0x0C, 0x0D, 0x0E, 0x0F, 0x10, 0x11, 0x12, 0x13, 0x14, 0x15, 0x16, 0x19]

/-- The cam table of a number. -/
def camTable (s : State) (k : Nat) : Option Cam :=
  match s.prog with
  | none => none
  | some g => match g.cams[k]? with | some c => if c.nseg = 0 then none else some c | none => none

/-- 1.0. -/
def fOne : Word := 0x3F800000

/-- The first condition of R338 that a loop's configuration fails, by its number there; 0 for a valid one. -/
def loopCfgFail (s : State) (n : LoopNo) : Nat :=
  let w := fun (o : Nat) => rw s (K.LOOPk_ENABLE n + o)
  let mode := (field (w 4) 1 0).toNat
  if !(flt (w 0x10) (w 0x11)) then 1
  else if !(fle 0 (w 0x12)) then 2
  else if !(fle 0 (w 0x0C) && fle 0 (w 0x09) && fle 0 (w 0x0A) && fle 0 (w 0x0B)) then 3
  else if !(fle 0 (w 0x0D) && fle (w 0x0D) fOne && fle 0 (w 0x0F) && fle (w 0x0F) fOne) then 4
  else if mode = 1 && !(flt 0 (w 0x13) && flt 0 (w 0x14) && flt 0 (w 0x15) && fle 0 (w 0x16)) then 5
  else if mode = 2 && (camTable s (field (w 4) 12 8).toNat).isNone then 6
  else if !(flt 0 (fa (w 0x0C) (loopH s n))) then 7
  else if !(loopFloats.all fun o => ffin (w o)) then 8
  else 0

/-! ## Raw values (R329) -/

/-- The input image of the running image: base and size. -/
def inputImage (s : State) : Nat × Nat := match s.prog with | some g => (g.hdr.inBase, g.hdr.inSize) | none => (0, 0)

/-- The validity bit holds (R329). -/
def rawValid (s : State) (v : Word) : Bool :=
  let o := (field v 23 0).toNat
  v.getLsbD 31 ||
    (decide (o < (inputImage s).2) && (((readMem s ((inputImage s).1 + o) 1).getD 0 0).getLsbD (field v 26 24).toNat != v.getLsbD 27))

/-- The engine reads a source and its validity bit through port 9 of the fabric (R36). -/
def srcRead (s : State) (src val : Word) : State :=
  let o := (field val 23 0).toNat
  let s := if val.getLsbD 31 || decide ((inputImage s).2 ≤ o) then s else eccRange s ((inputImage s).1 + o) 1 9
  let q := (field src 23 0).toNat
  let z := if (field src 27 24).toNat < 2 then 2 else 4
  if (inputImage s).2 < q + z then s else eccRange s ((inputImage s).1 + q) z 9

/-- The raw value as binary32 (Table 10-6); none where it is invalid. -/
def rawValue (s : State) (src val : Word) : Option Word :=
  let fmt := (field src 27 24).toNat
  let o := (field src 23 0).toNat
  let z := if fmt < 2 then 2 else 4
  if (inputImage s).2 < o + z || !(rawValid s val) then none
  else
    let v := readNat s ((inputImage s).1 + o) z
    some (
      if fmt = 0 then fofI (BitVec.ofNat 16 v).toInt
      else if fmt = 1 ∨ fmt = 3 then fofI v
      else if fmt = 2 then fofI (BitVec.ofNat 32 v).toInt
      else if fmt = 4 then BitVec.ofNat 32 v
      else fm (fofI (BitVec.ofNat 32 v).toInt) 0x30000000)

/-! ## References (R332 to R335) -/

/-- sign(x) as binary32. -/
def fsign (x : Word) : Word := if flt 0 x then fOne else if flt x 0 then fneg fOne else 0

/-- A profile step (R333): the new P, V, A and SETTLED. -/
def profileStep (vmax amax jmax ptol h target p v a : Word) : Word × Word × Word × Bool :=
  let dp := fs target p
  let root := BitVec.ofNat 32 (fSqrt f32 (fm (fm 0x40000000 amax) (fabs dp)).toNat).1
  let vs := fm (fsign dp) (if flt root vmax then root else vmax)
  let verr := fs (fs vs v) (fd (fm a (fabs a)) (fm 0x40000000 jmax))
  let ad := fclamp (fneg amax) amax (fd verr h)
  let jh := fm jmax h
  let a := fa a (fclamp (fneg jh) jh (fs ad a))
  let v := fclamp (fneg vmax) vmax (fa v (fm a h))
  let p := fa p (fm v h)
  if fle (fabs (fs target p)) ptol && fle (fabs v) (fm amax h) then (target, 0, 0, true) else (p, v, a, false)

/-- The cam table that CMD or REFMODE selects (Table 10-2). -/
def camOf (s : State) (n : LoopNo) (cmd : Half) : Option Cam :=
  camTable s (if cmd.getLsbD 15 then (cmd.toNat / 2 ^ 8) % 32 else (field (rw s (K.LOOPk_REFMODE n)) 12 8).toNat)

/-- r and rv of a cam reference (R335). -/
def camRef (s : State) (n : LoopNo) (cam : Cam) (sp : Word) : Word × Word :=
  let nb := Nat.log2 cam.nseg
  let rep := 2 ^ (field (rw s (K.LOOPk_REFMODE n)) 19 16).toNat
  let om := (rw s K.ENC_OMEGA).toInt
  let tc : Nat := (((rw s K.ENC_THETA0).toInt + om * Int.ofNat (periodT s)) * Int.ofNat rep % 2 ^ 32).toNat
  let lo : Nat := 32 - nb
  let i : Nat := tc / 2 ^ lo
  let x := fm (fofI (Int.ofNat (tc % 2 ^ lo))) (fofS 1 (-(Int.ofNat lo)))
  let c := fun (j : Nat) => cam.coef.getD (4 * i + j) 0
  let q := fa (fm (fa (fm (fa (fm (c 3) x) (c 2)) x) (c 1)) x) (c 0)
  let dq := fa (fm (fa (fm (fm 0x40400000 (c 3)) x) (fm 0x40000000 (c 2))) x) (c 1)
  let kcam := fofS (Int.ofNat (cam.nseg * rep * 1000000)) (-32)
  (fa q sp, fm (fm dq (fofI om)) kcam)

/-! ## Gain schedule (R357) -/

/-- The interpolated factor at x among the first `n` points. -/
def schedInterp (s : State) (n : LoopNo) (x : Word) : Nat → Nat → Word
  | 0, i => rw s (K.TUNEk_SCHG n i)
  | fuel + 1, i =>
    let x0 := rw s (K.TUNEk_SCHX n i)
    let x1 := rw s (K.TUNEk_SCHX n (i + 1))
    if flt x x1 then
      let g0 := rw s (K.TUNEk_SCHG n i)
      fa g0 (fm (fs (rw s (K.TUNEk_SCHG n (i + 1))) g0) (fd (fs x x0) (fs x1 x0)))
    else schedInterp s n x fuel (i + 1)

/-- The factor g of an update, and whether the source was invalid; a source that is not finite is (R329, R357). -/
def schedGain (s : State) (n : LoopNo) (h : Word) : Word × Bool :=
  let gf := s.loop.rt[n].gf
  if !(rb s (K.TUNEk_CTRL n) 2) then (fOne, false)
  else
    match rawValue s (rw s (K.TUNEk_SCHSRC n)) (rw s (K.TUNEk_SCHVAL n)) with
    | none => (gf, true)
    | some x =>
      if !(ffin x) then (gf, true)
      else
        let m := rn s (K.TUNEk_SCHN n)
        let gt :=
          if fle x (rw s (K.TUNEk_SCHX n 0)) then rw s (K.TUNEk_SCHG n 0)
          else if fle (rw s (K.TUNEk_SCHX n (m - 1))) x then rw s (K.TUNEk_SCHG n (m - 1))
          else schedInterp s n x (m - 1) 0
        let slew := rw s (K.TUNEk_SCHSLEW n)
        let gt := if flt 0 slew then fclamp (fs gf (fm slew h)) (fa gf (fm slew h)) gt else gt
        (fclamp 0x3E800000 0x40800000 gt, false)

/-! ## Tune runs at an update (R346 to R351) -/

/-- Update the tune run. -/
def State.updRun (s : State) (f : TuneRun → TuneRun) : State := { s with loop := { s.loop with run := s.loop.run.map f } }

/-- The run of a loop. -/
def runOf (s : State) (n : LoopNo) : Option TuneRun :=
  match s.loop.run with | some r => if r.loop = n.val then some r else none | none => none

/-- A run on the loop ends, and with it the proposal of an earlier one (R356). -/
def proposalEnds (s : State) (n : LoopNo) : State :=
  [K.TUNEk_PROP_KP n, K.TUNEk_PROP_KI n, K.TUNEk_PROP_KD n, K.TUNEk_PROP_TF n, K.TUNEk_PROP_STATE n].foldl (fun (s : State) (k : Nat) => sn s k 0) s

/-- A run ends for a reason of Table 11-1; the loop's state is the caller's. A run that ends early makes no proposal (R348). -/
def runEnds (s : State) (n : LoopNo) (reason : Nat) : State :=
  let s := { s with loop := { s.loop with run := none, cap := { s.loop.cap with st := 3 } } }
  let s := sn s (K.TUNEk_RUN_STATE n) 0
  let s := if reason = 0 then s else orw (bump (proposalEnds s n) K.TUNE_ABORT_CNT) (K.TUNEk_STATUS n) 1
  ev s 0x5011 (p4 n ++ p4 reason)

/-- Exclusive-or of the taps of a PRBS register of order `m` (Table 11-3). -/
def prbsTaps (m : Nat) : List Nat :=
  match m with
  | 5 => [4, 2] | 6 => [5, 4] | 7 => [6, 5] | 8 => [7, 5, 4, 3] | 9 => [8, 4] | 10 => [9, 6] | 11 => [10, 8] | _ => [11, 10, 9, 3]

/-- The register after one advance, and the bit that comes out (R350). -/
def prbsAdvance (m r : Nat) : Nat × Bool :=
  let fb := (prbsTaps m).foldl (fun b k => b != r.testBit k) false
  ((2 * r) % 2 ^ m + (if fb then 1 else 0), r.testBit (m - 1))

/-- The test signal at the run's update (R349): the run with its new register and w. -/
def testSignal (s : State) (n : LoopNo) (r : TuneRun) : TuneRun :=
  let sig := rw s (K.TUNEk_SIG n)
  let amp := rw s (K.TUNEk_AMP n)
  let len := rn s (K.TUNEk_TLEN n)
  if len ≤ r.j then { r with w := 0 }
  else if field sig 1 0 = 0 then { r with w := if r.j < len / 4 then 0 else amp }
  else
    let m := (field sig 11 8).toNat
    let pdiv := (field sig 23 16).toNat
    if r.j % pdiv = 0 then
      let reg := if r.j = 0 then 2 ^ m - 1 else r.lfsr
      { r with lfsr := (prbsAdvance m reg).1, w := if (prbsAdvance m reg).2 then amp else fneg amp }
    else r

/-! ## Forced opens and losses (R336) -/

/-- A forced open of a record: OPEN, FOPEN, SEENOPEN cleared. -/
def LoopRec.forceOpen (r : LoopRec) : LoopRec := ((r.setState 1).setFlag 2 true).setFlag 3 false

/-- Event 16#5002 of a loop that leaves CLOSED. -/
def loopOpened (s : State) (n : LoopNo) (reason : Nat) : State := ev s 0x5002 (p4 n ++ p4 reason)

/-- A close is refused (Table 10-7). -/
def closeRefused (s : State) (n : LoopNo) (cond : Nat) : State :=
  evb (orw s (K.LOOPk_STATUS n) 0x10) 0x5006 (p4 n ++ p4 cond)

/-! ## Capture (R351, R352) -/

/-- A capture channel's value (Table 11-4). -/
def capSignal (sel : Nat) (y r u i d rv g w : Word) : Word :=
  if sel = 0 then y else if sel = 1 then r else if sel = 2 then fs r y else if sel = 3 then u else if sel = 4 then i
  else if sel = 5 then d else if sel = 6 then rv else if sel = 7 then g else w

/-- Samples held per channel. -/
def Cap.taken (c : Cap) : Nat := (c.data.getD 0 []).length

/-- Samples are appended. -/
def Cap.push (c : Cap) (v : List Word) : Cap :=
  { c with data := (List.range 4).map fun i => v.getD i 0 :: c.data.getD i [] }

/-- A capture ends: HOLDING, with its event (R352). -/
def captureEnds (s : State) : State :=
  let s := { s with loop := { s.loop with cap := { s.loop.cap with st := 3 } } }
  ev s 0x5017 (p4 s.loop.cap.loop ++ p4 s.loop.cap.taken)

/-! ## Supervision (R358) -/

/-- The window in progress is discarded. -/
def supDiscard (s : State) (n : LoopNo) : State :=
  s.updRt n fun t => { t with supN := 0, supSum := 0, supOsc := 0, supPrev := none, baseReq := t.baseReq || t.baseWin, baseWin := false }

/-- A window is complete. -/
def supWindow (s : State) (n : LoopNo) : State :=
  let t := s.loop.rt[n]
  let jv := fd t.supSum (fofI (rn s (K.TUNEk_SUPWIN n)))
  let s := sw s (K.TUNEk_J_LAST n) jv
  let s := if t.baseWin then sw s (K.TUNEk_J0 n) jv else s
  let j0 := rw s (K.TUNEk_J0 n)
  let bad := flt 0 j0 && flt (fm (rw s (K.TUNEk_DEGR n)) j0) jv
  let cnt := if bad then t.supBad + 1 else 0
  let degr := decide (rn s (K.TUNEk_SUPN n) ≤ cnt)
  let s := if degr && bad then
      ev (orw (bump s (K.TUNEk_DEGR_CNT n)) (K.TUNEk_STATUS n) 2) 0x5014 (p4 n ++ leBytes 4 jv.toNat ++ leBytes 4 j0.toNat) else s
  let lim := rn s (K.TUNEk_OSCLIM n)
  let s := if lim ≠ 0 ∧ lim ≤ t.supOsc then
      ev (orw (bump s (K.TUNEk_OSC_CNT n)) (K.TUNEk_STATUS n) 4) 0x5015 (p4 n ++ p4 t.supOsc) else s
  s.updRt n fun t => { t with supN := 0, supSum := 0, supOsc := 0, baseWin := false, supBad := if degr && bad then 0 else cnt,
                              retune := t.retune || (degr && bad && rb s (K.TUNEk_CTRL n) 1) }

/-- A CLOSED update with error `e` under supervision. -/
def supUpdate (s : State) (n : LoopNo) (e : Word) : State :=
  if !(rb s (K.TUNEk_CTRL n) 3) then s
  else
    let band := rw s (K.TUNEk_OSCBAND n)
    let s := s.updRt n fun t =>
      let t := if t.supN = 0 then { t with baseWin := t.baseReq, baseReq := false } else t
      let osc := match t.supPrev with
        | some p => fle band (fabs e) && fle band (fabs p) && ((flt 0 e && flt p 0) || (flt e 0 && flt 0 p))
        | none => false
      { t with supN := t.supN + 1, supSum := fa t.supSum (fm e e), supOsc := t.supOsc + (if osc then 1 else 0), supPrev := some e }
    if rn s (K.TUNEk_SUPWIN n) ≤ s.loop.rt[n].supN then supWindow s n else s

/-! ## The update (R330, R331) -/

/-- The quantities that the control law forms. -/
structure LawOut where
  y : Word
  r : Word
  rv : Word
  i : Word
  d : Word
  p : Word
  v : Word
  a : Word
  vv : Word
  u : Word
  first : Bool
  settled : Bool
  sat : Bool
  rate : Bool
  bad : Nat

/-- Output limits and rate limit: u, SAT and RATE. -/
def loopLimit (s : State) (n : LoopNo) (v uf h : Word) : Word × Bool × Bool :=
  let umin := rw s (K.LOOPk_UMIN n)
  let umax := rw s (K.LOOPk_UMAX n)
  let u := fclamp umin umax v
  let rate := rw s (K.LOOPk_URATE n)
  let d := fm rate h
  let u2 := if flt 0 rate then fclamp (fs uf d) (fa uf d) u else u
  (u2, flt v umin || flt umax v, decide (u2 ≠ u))

/-- The hold value of a forced open (R336). -/
def holdValue (s : State) (n : LoopNo) (uf : Word) : Word :=
  if rb s (K.LOOPk_POLICY n) 0 then rw s (K.LOOPk_USAFE n) else uf

/-- The control law of R330 from measurement `y`, record `q` (after its transitions), snapshot and test signal. `est` is the state
that governs, `frozen` LOST above 0. -/
def loopLaw (s : State) (n : LoopNo) (q : LoopRec) (y g w : Word) (est : Nat) (cam : Option Cam) (tuning frozen : Bool) : LawOut :=
  let t := s.loop.rt[n]
  let h := loopH s n
  let c := fun (o : Nat) => rw s (K.LOOPk_ENABLE n + o)
  let mode := (field (c 4) 1 0).toNat
  let atRef := rb s (K.TUNEk_SIG n) 4
  let d := fd (fa (fm (c 0x0C) q.d) (fs y q.yp)) (fa (c 0x0C) h)
  let prof := profileStep (c 0x13) (c 0x14) (c 0x15) (c 0x16) h t.sp q.p q.v q.a
  let ref : Word × Word × Word × Word × Word × Bool :=
    if mode = 1 then
      if est = 2 then (prof.1, prof.2.1, prof.1, prof.2.1, prof.2.2.1, prof.2.2.2) else (y, 0, y, 0, 0, false)
    else if mode = 2 then
      match cam with
      | some k => let rr := camRef s n k t.sp; (rr.1, rr.2, rr.1, rr.2, q.a, false)
      | none => (q.p, 0, q.p, q.v, q.a, false)
    else (t.sp, 0, q.p, q.v, q.a, false)
  let r := if tuning && atRef then fa ref.1 w else ref.1
  let rv := ref.2.1
  let ff := fa t.ff (fm (c 0x0E) rv)
  let kp := fm (c 0x09) g
  let ki := fm (c 0x0A) g
  let kd := fm (c 0x0B) g
  let prop := fm kp (fs (fm (c 0x0D) r) y)
  let first := est = 2 && q.flag 5
  let i :=
    if est = 2 then
      if first then fs q.uf (fa (fs prop (fm kd d)) ff)
      else if t.cmd.getLsbD 1 then 0
      else if !(t.cmd.getLsbD 2) && !frozen then fa q.i (fm (fm ki h) (fs r y))
      else q.i
    else q.i
  let v0 :=
    if est = 2 then (if first then q.uf else fa (fs (fa prop i) (fm kd d)) ff)
    else if q.flag 2 then holdValue s n q.uf else t.ff
  let v := if tuning && (est = 1 || !atRef) then fa v0 w else v0
  let lim := loopLimit s n v q.uf h
  let i2 := if est = 2 && !first then fclamp (c 0x10) (c 0x11) (fa i (fm (c 0x0F) (fs lim.1 v))) else i
  let bad := if !(ffin y) then 1 else if !(ffin d) then 2 else if !(ffin r) then 3 else if !(ffin i) then 4
    else if !(ffin v) then 5 else if !(ffin lim.1) then 6 else if !(ffin i2) then 4 else 0
  { y := y, r := r, rv := rv, i := i2, d := d, p := ref.2.2.1, v := ref.2.2.2.1, a := ref.2.2.2.2.1, vv := v, u := lim.1,
    first := first, settled := ref.2.2.2.2.2, sat := lim.2.1, rate := lim.2.2, bad := bad }

/-- The record after GAP and GOPEN of its first update (R339), and whether it made a forced open. -/
def gapRec (q : LoopRec) (y : Word) : LoopRec × Bool :=
  if !(q.flag 4) then (q, false)
  else
    let q1 := ({ q with yp := y, d := 0 } : LoopRec).setFlag 4 false
    if q.state = 2 then
      if q.flag 6 then ((q1.forceOpen).setFlag 6 false, true) else (q1.setFlag 5 true, false)
    else (q1.setFlag 6 false, false)

/-- The transitions of Table 10-7 at an update of an OPEN or CLOSED loop, with their events. -/
def loopTransition (s : State) (n : LoopNo) (q : LoopRec) (valid camInv : Bool) : State × LoopRec :=
  let close := s.loop.rt[n].cmd.getLsbD 0
  let q := if q.flag 2 && !close then (q.setFlag 2 false).setFlag 3 true else q
  if q.state = 1 ∧ close then
    let cond := if q.flag 2 then 10 else if !valid then 11 else if camInv then 12 else loopCfgFail s n
    if cond = 0 then (ev s 0x5001 (p4 n ++ p8 s.tick.n), (q.setState 2).setFlag 5 true)
    else (closeRefused s n cond, q)
  else if q.state = 2 ∧ !close then (loopOpened s n 1, q.setState 1)
  else (s, q)

/-- The run ends early at this update (R348), from the reasons that precede the control law: the reason, if any. -/
def runAbort (s : State) (n : LoopNo) (r : TuneRun) (q : LoopRec) (y : Word) : Option Nat :=
  if rn s (K.LOOPk_LOSS_LIM n) ≤ q.lost then some 4
  else if 0 < r.j && flt (rw s (K.TUNEk_YEXC n)) (fabs (fs y r.y0)) then some 5
  else if 0 < r.j && s.loop.rt[n].cmd.getLsbD 0 != r.close0 then some 6
  else none

/-- The measurement of an update: y, and whether it is valid (R329, R335). -/
def loopMeasure (s : State) (n : LoopNo) (q : LoopRec) : Word × Bool :=
  match rawValue s (rw s (K.LOOPk_YSRC n)) (rw s (K.LOOPk_YVAL n)) with
  | none => (q.yp, false)
  | some c =>
    let y := fa (fm (rw s (K.LOOPk_YSCALE n)) c) (rw s (K.LOOPk_YOFS n))
    if ffin y then (y, true) else (q.yp, false)

/-- The update writes its result: U in the output area, the loop's words, and what the input area shows. -/
def loopResult (s : State) (n : LoopNo) (o : LawOut) (g : Word) (flags : Nat) : State :=
  let s := match findArea s 5 0 1 with
    | some a => s.updMem fun m =>
        { m with stq := insertStore { cyc := s.loop.done * 7920 / 100, core := 8, addr := areaAddr s a + 16 * n.val + 12, bytes := leBytes 4 o.u.toNat } m.stq }
    | none => s
  let s := sw (sw (sw (sw (bump s (K.LOOPk_UPD_CNT n)) (K.LOOPk_Y_LAST n) o.y) (K.LOOPk_U_LAST n) o.u) (K.LOOPk_I_LAST n) o.i) (K.LOOPk_GF n) g
  let s := if o.sat then orw (bump s (K.LOOPk_SAT_CNT n)) (K.LOOPk_STATUS n) 1 else s
  let s := if o.rate then orw s (K.LOOPk_STATUS n) 2 else s
  s.updRt n fun t => { t with y := o.y, r := o.r, e := fs o.r o.y, u := o.u, integ := o.i, rv := o.rv, gf := g, flags := flags,
                              seq := t.seq + 1, updated := true }

/-- The sample of a capture or of a run (R351, R352). -/
def loopSample (s : State) (n : LoopNo) (o : LawOut) (g w : Word) (ran : Option TuneRun) : State :=
  let c := s.loop.cap
  match ran with
  | some r =>
    if r.j < rn s (K.TUNEk_TLEN n) ∧ r.j % rn s (K.TUNEk_TDEC n) = 0 then
      { s with loop := { s.loop with cap := c.push [o.y, o.u, o.r, w] } }
    else s
  | none =>
    if c.st ≠ 1 ∨ c.loop ≠ n.val ∨ s.loop.run.isSome then s
    else
      let q := if c.k % c.dec = 0 then c.push (c.sel.map fun i => capSignal i o.y o.r o.u o.i o.d o.rv g w) else c
      let s := { s with loop := { s.loop with cap := { q with k := c.k + 1 } } }
      if c.count ≤ s.loop.cap.taken then captureEnds s else s

/-- A loop enters TUNING at its first due update after the start (R346). -/
def tuneEnter (s : State) (n : LoopNo) (r : TuneRun) (q : LoopRec) (y : Word) : State × LoopRec :=
  let s := s.updRun fun r => { r with entered := true, y0 := y, close0 := s.loop.rt[n].cmd.getLsbD 0, g := s.loop.rt[n].gf }
  let s := ev (sn (bump s K.TUNE_RUN_CNT) (K.TUNEk_RUN_STATE n) 1) 0x5010
    (p4 n ++ p4 (field (rw s (K.TUNEk_SIG n)) 1 0).toNat ++ p4 (if r.owner.isSome then 1 else 2) ++ p8 s.tick.n)
  (s, (q.setFlag 7 (decide (q.state = 2))).setState 3)

/-- The inputs that an update reads: its measurement, and the schedule's source while one is on. -/
def loopReads (s : State) (n : LoopNo) : State :=
  let s := srcRead s (rw s (K.LOOPk_YSRC n)) (rw s (K.LOOPk_YVAL n))
  if rb s (K.TUNEk_CTRL n) 2 && decide ((loopRec s n).state ≠ 3) then srcRead s (rw s (K.TUNEk_SCHSRC n)) (rw s (K.TUNEk_SCHVAL n)) else s

/-- One update of a loop that is OPEN, CLOSED or TUNING. A numeric fault leaves LOST as it stood, so its update is no loss (R331). Assumption 131. -/
def loopUpdate (s : State) (n : LoopNo) : State :=
  let s := loopReads s n
  let old := loopRec s n
  let m := loopMeasure s n old
  let h := loopH s n
  let cam := if (field (rw s (K.LOOPk_REFMODE n)) 1 0).toNat = 2 then
      (if rw s K.ENC_AVALID = 1 then camOf s n s.loop.rt[n].cmd else none) else none
  let camInv := (field (rw s (K.LOOPk_REFMODE n)) 1 0).toNat = 2 && cam.isNone
  let y := m.1
  let lost := if m.2 && !camInv then 0 else min (old.lost + 1) 255
  let lim := rn s (K.LOOPk_LOSS_LIM n)
  let lossOn := s.loop.rt[n].loss.getD (decide (lim ≤ old.lost))
  let loss := !lossOn && decide (old.lost < lim) && decide (lim ≤ lost)
  let gq := gapRec old y
  let q := gq.1.setLost lost
  let s := if gq.2 then orw (loopOpened s n 4) (K.LOOPk_STATUS n) 0x40 else s
  -- transitions, a run's start or its early end
  let run0 := runOf s n
  let enter := match run0 with | some r => !r.entered && (q.state = 1 || q.state = 2) | none => false
  let s1 :=
    if enter then (match run0 with | some r => tuneEnter s n r q y | none => (s, q))
    else if q.state = 3 then (s, q)
    else loopTransition s n q m.2 camInv
  let s := s1.1
  let q := s1.2
  let run := if q.state = 3 then runOf s n else none
  let abort := match run with | some r => runAbort s n r q y | none => none
  let wasClosed := q.effState = 2
  let q := if abort.isSome then q.leaveTuning else q
  let q := if loss && wasClosed then q.forceOpen else q
  let run := if abort.isSome then none else run
  let run := run.map fun r => if rn s (K.TUNEk_TLEN n) ≤ r.j then { r with w := 0, ident := true } else testSignal s n r
  -- the control law
  let est := q.effState
  let gs := match run with | some r => (r.g, false) | none => schedGain s n h
  let w := match run with | some r => r.w | none => 0
  let o := loopLaw s n q y gs.1 w est cam run.isSome (decide (lost ≠ 0))
  let s := if gs.2 then evb (orw (bump s (K.TUNEk_SCHINV_CNT n)) (K.TUNEk_STATUS n) 8) 0x5016 (p4 n) else s
  let s := if camInv then orw s (K.LOOPk_STATUS n) 0x20 else s
  let fault := decide (o.bad ≠ 0)
  let hl := loopLimit s n (holdValue s n old.uf) old.uf h
  let o := if fault then { o with u := hl.1, sat := hl.2.1, rate := hl.2.2, i := old.i, settled := false } else o
  let q2 : LoopRec :=
    if fault then { (old.forceOpen).setFlag 6 false with uf := o.u }
    else { q.setFlag 5 (q.flag 5 && !o.first) with i := o.i, yp := o.y, d := o.d, p := o.p, v := o.v, a := o.a, uf := o.u }
  let s := s.updLoop n fun _ => q2
  -- losses and numeric faults
  let s := if fault then ev (orw (bump s (K.LOOPk_NUM_CNT n)) (K.LOOPk_STATUS n) 8) 0x5005 (p4 n ++ p4 o.bad) else s
  let s := if fault && wasClosed then loopOpened s n 3 else s
  let s := if loss && !fault then evb (orw (bump s (K.LOOPk_LOSS_CNT n)) (K.LOOPk_STATUS n) 4) 0x5003 (p4 n ++ p4 lost) else s
  let s := if loss && wasClosed && !fault then loopOpened s n 2 else s
  let s := if lossOn && decide (lost = 0) then ev s 0x5004 (p4 n) else s
  let lossOn := decide (lost ≠ 0) && (lossOn || (loss && !fault))
  let s := s.updRt n fun t => { t with loss := some lossOn }
  let s := match (if fault && (run.isSome || abort.isSome) then some 3 else abort) with | some e => runEnds s n e | none => s
  -- result, samples, supervision
  let flag := fun (b : Bool) (i : Nat) => if b then 2 ^ i else 0
  let flags := flag o.sat 0 + flag o.rate 1 + flag lossOn 2 + flag fault 3 + flag camInv 4 + flag o.settled 5 + flag (q2.flag 2) 7
  let s := loopResult s n o gs.1 flags
  let ran := if fault then none else run
  let s := loopSample s n o gs.1 w ran
  let s := match ran with
    | some r =>
      let begins := r.ident && !((run0.map fun x => x.ident).getD false)
      let s := if begins then { sn s (K.TUNEk_RUN_STATE n) 2 with loop := { s.loop with cap := { s.loop.cap with st := 2 } } } else s
      s.updRun fun x => { x with j := x.j + 1, lfsr := r.lfsr, w := r.w, ident := r.ident }
    | none => s
  if est = 2 && run.isNone && !fault && q2.state = 2 then supUpdate s n (fs o.r o.y) else supDiscard s n

/-- The next due loop's update completes, at edge + 2 µs + j · 160 ns (R322). -/
def execLoopUpdate (s : State) : Answer :=
  .next (
    match s.loop.due with
    | [] => s
    | n :: r =>
      let s := { s with loop := { s.loop with due := r, done := s.loop.done + 1 } }
      let s := setNow s (s.tick.edgeTs + 200 + 16 * s.loop.done)
      if h : n < 96 then
        if (loopRec s ⟨n, h⟩).state = 0 then s else loopUpdate s ⟨n, h⟩
      else s)

/-! ## Enabling (R320, R337, R340) -/

/-- The range of all loops. -/
def loopIds : List LoopNo := List.finRange 96

/-- ENABLE of a loop is written (Table 10-7); answers whether it was applied. -/
def loopEnable (s : State) (n : LoopNo) (v : Bool) : State × Bool :=
  let q := loopRec s n
  if v then
    if nloop s ≤ n.val then (cfgRej s 0x600, false)
    else if q.state ≠ 0 then (s, true)
    else
      let c := loopCfgFail s n
      if c ≠ 0 then (ev (orw s (K.LOOPk_STATUS n) 0x10) 0x5006 (p4 n ++ p4 c), false)
      else ((s.updLoop n fun q => ((q.setState 1).setFlag 5 false).setFlag 2 false).updRt n fun t => { t with seq := 0, flags := 0 }, true)
  else if q.state = 0 then (s, true)
  else
    let s := if q.state = 3 then runEnds s n 1 else s
    let s := match runOf s n with | some _ => runEnds s n 1 | none => s
    let s := if s.loop.cap.st = 1 ∧ s.loop.cap.loop = n.val ∧ s.loop.run.isNone then captureEnds s else s
    (supDiscard (s.updLoop n fun q => q.setState 0) n, true)

/-- A write of LOOP[n].ENABLE takes effect in Phase O. The rule that names R16 is the one for a loop at or above NLOOP (R320). -/
def execLoopEnableWrite (n : Fin 96) (v : Bool) (s : State) : Answer :=
  .next (let q := loopEnable s n v
         if nloop s ≤ n.val then written (K.LOOPk_ENABLE n) q else q.1)

/-! ## The tick -/

/-- Phase L: the due loops of the tick in ascending number (R321, R322). -/
def loopsStart (s : State) : State :=
  let due := (List.range (nloop s)).filter fun n =>
    if h : n < 96 then
      decide ((loopRec s ⟨n, h⟩).state ≠ 0) && decide (s.tick.n % rn s (K.LOOPk_DIV n) = rn s (K.LOOPk_PH n))
    else false
  { s with loop := { s.loop with due := due, done := 0 } }

/-- Phase O: the snapshot of SP, FF and CMD of every output record (R323). -/
def loopsSnapshot (s : State) : State :=
  match getArea s 5 0 with
  | none => s
  | some b =>
    loopIds.foldl (fun (s : State) (n : LoopNo) =>
      if n.val < nloop s then
        s.updRt n fun t => { t with sp := BitVec.ofNat 32 (leNat (slice b (16 * n.val) 4)), ff := BitVec.ofNat 32 (leNat (slice b (16 * n.val + 4) 4)),
                                    cmd := BitVec.ofNat 16 (leNat (slice b (16 * n.val + 8) 2)) }
      else s) s

/-- A loop's input record (Table 10-3). -/
def loopInput (s : State) (n : LoopNo) : List Byte :=
  let t := s.loop.rt[n]
  let st := (loopRec s n).state
  if st = 0 then padTo 32 []
  else
    leBytes 4 t.y.toNat ++ leBytes 4 t.r.toNat ++ leBytes 4 t.e.toNat ++ leBytes 4 t.u.toNat ++ leBytes 4 t.integ.toNat ++
      leBytes 4 t.rv.toNat ++ leBytes 1 st ++ leBytes 1 (t.flags + (if t.updated then 64 else 0)) ++ leBytes 2 t.seq.toNat ++ leBytes 4 t.gf.toNat

/-- Phase I: the results of the tick before enter the input area (R322, R326). -/
def loopsEdge (s : State) : State :=
  let s := sn (sn s K.LOOP_DUE_LAST s.loop.done) K.LOOP_ENGINE_NS_LAST (160 * s.loop.done)
  let s := putArea s 5 0 (((loopIds.take (nloop s)).map fun n => loopInput s n).flatten)
  { s with loop := { s.loop with due := [], done := 0, rt := s.loop.rt.map fun t => { t with updated := false } } }

/-- The engine stops running: a tune run ends with STATE, a capture ends early, windows are discarded (R348, R352, R358). -/
def loopsStop (s : State) : State :=
  let s := { s with loop := { s.loop with due := [] } }
  let s := match s.loop.run with
    | some r =>
      if h : r.loop < 96 then runEnds (s.updLoop ⟨r.loop, h⟩ LoopRec.leaveTuning) ⟨r.loop, h⟩ 2 else s
    | none => if s.loop.cap.st = 1 then captureEnds s else s
  loopIds.foldl supDiscard s

/-- Entry to HELD, SAFE, or RUN from a start sets GAP, and GOPEN where the loop is to be opened (R339). `opens` says it for every
loop; else POLICY.RSTOPEN where `start` is set. -/
def loopsGap (s : State) (opens start : Bool) : State :=
  loopIds.foldl (fun (s : State) (n : LoopNo) =>
    if (loopRec s n).state = 0 then s
    else
      let o := opens || (start && rb s (K.LOOPk_POLICY n) 1)
      (s.updLoop n fun q => (q.leaveTuning.setFlag 4 true).setFlag 6 (q.flag 6 || o)).updRt n fun t =>
        { t with loss := if start then none else t.loss }) (loopsStop s)

/-- What the engine holds of a loop after a reset. -/
def LoopRt.reset : LoopRt :=
  { sp := 0, ff := 0, cmd := 0, y := 0, r := 0, e := 0, u := 0, integ := 0, rv := 0, gf := 0x3F800000, flags := 0, seq := 0, updated := false, loss := none,
    supN := 0, supSum := 0, supOsc := 0, supPrev := none, supBad := 0, baseReq := false, baseWin := false, retune := false }

/-- The capture memory, idle. -/
def Cap.idle : Cap := { st := 0, loop := 0xFF, owner := none, sel := [], dec := 1, count := 0, k := 0, data := [] }

/-- The engine and the tuning unit after a reset; a loop that the restart finds in TUNING returns to TRET (R348, R352). -/
def loopsReset (s : State) : State :=
  let s := { s with loop := { due := [], done := 0, rt := Vector.replicate 96 LoopRt.reset, run := none, cap := Cap.idle } }
  { s with ret := { s.ret with x := { s.ret.x with loops := s.ret.x.loops.map LoopRec.leaveTuning } } }

end Sys2Proof.Machine
end

