-- ==== Sys2Proof/Machine/Bus.lean ====
section
/-! DEFINITION. Message buses (R414 to R432). -/

namespace Sys2Proof.Machine

/-- Update one controller. -/
def State.updBus (s : State) (m : Fin 4) (f : BusSt → BusSt) : State :=
  { s with bus := s.bus.set m (f s.bus[m]) m.isLt }

/-- Every controller. -/
def busIds : List (Fin 4) := [0, 1, 2, 3]

/-- A controller after a reset or at its enabling. -/
def BusSt.fresh : BusSt :=
  { off := 0, tec := 0, rerr := 0, offTicks := 0, recov := false, row := 0, rxb := List.replicate 32 { fr := none, n := 0 }, fifo := [],
    fifoLost := 0, hp := List.replicate 8 none, hpSeq := List.replicate 4 0, cap := [], cur := [], send := none, evp := [], entered := [],
    ending := [], txdone := 0, miss := 0, restart := false, cycStart := 0, cycNo := 0, cycTick := 0, nextWin := 33, noSched := false }

/-- The controller is enabled in a state that has it on its bus: rows 1 and 2 of Table 14-7 leave it off. -/
def busLive (s : State) (m : Fin 4) : Bool :=
  ticking s.mode && rb s (K.BUSk_ENABLE m) 0 && !s.power.dormStopped && s.power.pf.isNone

/-- The controller is on its bus: 0 off, 1 LISTEN, 2 normal (Table 14-7). -/
def busMode (s : State) (m : Fin 4) : Nat :=
  if !(busLive s m) || s.bus[m].off ≠ 0 then 0
  else if s.role = .standby ∨ s.role = .syncing then 1 else 2

/-- BUS[k].STATE (Table 14-9). -/
def busState (s : State) (m : Fin 4) : Nat :=
  let b := s.bus[m]
  if !(busLive s m) then 0
  else if b.off = 1 then 4 else if b.off = 2 then 5
  else if s.role = .standby ∨ s.role = .syncing then 1
  else if 128 ≤ b.tec ∨ 128 ≤ b.rerr then 3 else 2

/-! ## Withdrawal and errors (R425, R428) -/

/-- A scheduled frame is withdrawn (R425); an EVENT frame stays pending. -/
def busMiss (s : State) (m : Fin 4) (t : TxFrame) : State :=
  match t.win with
  | none => s
  | some w =>
    let s := s.updBus m fun b => { b with miss := b.miss ||| 2 ^ w }
    evb (orw (bump s (K.BUSk_TXMISS_CNT m)) (K.BUSk_STATUS m) 0x40) 0x7007 (p4 m ++ p4 t.cycle ++ p4 w ++ p4 t.buf)

/-- Every frame that the controller has not begun to send is withdrawn. -/
def busWithdraw (s : State) (m : Fin 4) (begun : Option (Fin 16)) : State :=
  let keep := fun (t : TxFrame) => decide (begun.map Fin.val = some t.buf)
  let l := s.bus[m].entered
  (l.eraseP keep).foldl (fun s t => busMiss s m t)
    (s.updBus m fun b => { b with entered := (l.find? keep).toList.map fun t => { t with begun := true } })

/-- The controller becomes bus-off, and HALTED at BOFF_LIM in a row. -/
def busOff (s : State) (m : Fin 4) : State :=
  let s := busWithdraw s m none
  let s := s.updBus m fun b => { b with off := 1, offTicks := 0, recov := false, row := b.row + 1 }
  let s := ev (orw (bump s (K.BUSk_BOFF_CNT m)) (K.BUSk_STATUS m) 0x4) 0x7001 (p4 m ++ p4 (min s.bus[m].tec 255) ++ p8 s.tick.n)
  let lim := rn s (K.BUSk_BOFF_LIM m)
  if lim ≠ 0 ∧ lim ≤ s.bus[m].row then
    ev ((orw s (K.BUSk_STATUS m) 0x8).updBus m fun b => { b with off := 2 }) 0x7003 (p4 m ++ p4 s.bus[m].row)
  else s

/-- A protocol error; `tec` and `rec` are the error counters after it by ISO 11898-1 (R428). -/
def busError (m : Fin 4) (tec rec : Nat) (s : State) : State :=
  if busMode s m = 0 then s
  else
    let s := bump s (K.BUSk_ERR_CNT m)
    if busMode s m = 1 then s
    else
      let was := busState s m
      let s := s.updBus m fun b => { b with tec := tec, rerr := rec }
      if 255 < tec then busOff s m
      else if was ≠ 3 ∧ busState s m = 3 then
        ev (orw s (K.BUSk_STATUS m) 0x2) 0x7004 (p4 m ++ p4 (min tec 255) ++ p4 (min rec 255))
      else s

/-- A CAN FD frame on a bus whose MODE is CLASSIC: a form error that the receiver counts (Table 14-1). Assumption 130. -/
def busFormError (s : State) (m : Fin 4) : State := busError m s.bus[m].tec (s.bus[m].rerr + 1) s

/-! ## Reception (R417 to R420) -/

/-- Filters with KIND 3, ascending: the owners of the high-priority slots. -/
def hpFilters (s : State) (m : Fin 4) : List Nat :=
  (List.range 64).filter fun f => decide (field (rw s (K.BUSk_FDEST m f)) 7 6 = 3)

/-- The first filter that matches a frame (R417). -/
def busFilter (s : State) (m : Fin 4) (idw : Word) : Option Nat :=
  (List.range 64).find? fun f =>
    decide (field (rw s (K.BUSk_FDEST m f)) 7 6 ≠ 0) &&
    ((rw s (K.BUSk_FID m f)).getLsbD 29 == idw.getLsbD 29) &&
    decide ((idw ^^^ rw s (K.BUSk_FID m f)) &&& rw s (K.BUSk_FMASK m f) &&& 0x1FFFFFFF = 0)

/-- A buffer entry of 80 bytes (Table 14-4). -/
def rxEntry (r : RxFrame) (flg cnt : Nat) : List Byte :=
  leBytes 8 r.ts ++ leBytes 4 r.f.idw.toNat ++ leBytes 1 (min r.f.data.length 64) ++
    leBytes 1 ((if r.f.esi then 4 else 0) + flg) ++ leBytes 2 cnt ++ padTo 64 r.f.data

/-- An empty buffer entry. -/
def rxEmpty : List Byte := padTo 80 []

/-- A high-priority entry as bytes. -/
def hpBytes (e : Option HpEntry) : List Byte := match e with | some e => rxEntry e.fr 0 e.cnt | none => rxEmpty

/-- A frame enters the FIFO (R419). -/
def busFifo (s : State) (m : Fin 4) (r : RxFrame) : State :=
  if s.bus[m].fifo.length < 16 then s.updBus m fun b => { b with fifo := b.fifo ++ [r] }
  else
    let s := s.updBus m fun b => { b with fifoLost := b.fifoLost + 1 }
    evb (orw (bump s (K.BUSk_FIFO_OVR_CNT m)) (K.BUSk_STATUS m) 0x10) 0x7005 (p4 m ++ p4 s.bus[m].fifoLost)

/-- Which of two entries a new frame takes: an empty one, else the older. -/
def hpPick (a b : Option HpEntry) : Nat :=
  match a, b with
  | none, _ => 0
  | _, none => 1
  | some x, some y => if x.fr.ts ≤ y.fr.ts then 0 else 1

/-- A frame matches high-priority filter `f`, which owns slot `j` (R420). -/
def busHigh (s : State) (m : Fin 4) (f j : Nat) (r : RxFrame) (cyc : Nat) : State :=
  let b := s.bus[m]
  let e := 2 * j + hpPick (b.hp.getD (2 * j) none) (b.hp.getD (2 * j + 1) none)
  let seq := if b.hpSeq.getD j 0 = 65535 then 1 else b.hpSeq.getD j 0 + 1
  let lost := match b.hp.getD e none with | some o => !o.taken | none => false
  let s := s.updBus m fun b => { b with hp := b.hp.set e (some { fr := r, cnt := seq, taken := false }), hpSeq := b.hpSeq.set j seq }
  let s := match findArea s 4 m.val 0 with
    | some a => writeMem s (areaAddr s a + 0xF20 + 80 * e) (rxEntry r 0 seq)
    | none => s
  let s := if lost then evb (orw (bump s (K.BUSk_HP_OVR_CNT m)) (K.BUSk_STATUS m) 0x20) 0x7006 (p4 m ++ p4 f) else s
  trigger s (0x0100 + 64 * m.val + f) cyc

/-- A valid frame is offered to the filters (R417). -/
def busDeliver (s : State) (m : Fin 4) (r : RxFrame) (cyc : Nat) : State :=
  match busFilter s m r.f.idw with
  | none => if rb s (K.BUSk_NOMATCH m) 0 then busFifo (bump s (K.BUSk_RX_CNT m)) m r else bump s (K.BUSk_NOMATCH_CNT m)
  | some f =>
    let s := bump s (K.BUSk_RX_CNT m)
    let dest := rw s (K.BUSk_FDEST m f)
    let kind := (field dest 7 6).toNat
    if kind = 1 then
      let i := (field dest 4 0).toNat
      s.updBus m fun b => { b with rxb := b.rxb.set i { fr := some r, n := (b.rxb.getD i { fr := none, n := 0 }).n + 1 } }
    else if kind = 2 then busFifo s m r
    else busHigh s m f ((hpFilters s m).findIdx fun x => decide (x = f)) r cyc

/-- The receive error counter after a good reception (ISO 11898-1). -/
def recDown (r : Nat) : Nat := if r = 0 then 0 else if 127 < r then 127 else r - 1

/-- A frame has become valid. A CAN FD frame on a bus whose MODE is CLASSIC is a form error and no frame (R414). -/
def canFrameReceive (m : Fin 4) (f : CanFrame) (cyc : Nat) (s : State) : State :=
  if busMode s m = 0 then s
  else if f.idw.getLsbD 30 && decide (rw s (K.BUSk_MODE m) = 0) then busFormError s m
  else
    let s := if busMode s m = 2 then s.updBus m fun b => { b with rerr := recDown b.rerr } else s
    busDeliver s m { ts := s.now, f := f } cyc

/-- A valid CAN frame arrives; `at_` is the instant at which it becomes valid (R417, R429). -/
def execCanFrameReceive (m : Fin 4) (f : CanFrame) (at_ : Nat) (cyc : Nat) (s : State) : Answer :=
  .next (actAt s at_ (.canFrameReceive m f at_ cyc) (canFrameReceive m f cyc))

/-- A remote frame: acknowledged, counted, never stored (R414). -/
def execRtrReceive (m : Fin 4) (at_ : Nat) (s : State) : Answer :=
  let s := setNow s at_
  .next (if busMode s m = 0 then s else bump s (K.BUSk_RTR_CNT m))

/-! ## Transmission (R422 to R426) -/

/-- SEND and INHIBIT of a captured buffer; its LEN and IDW. -/
def txSend (b : List Byte) : Bool := (b.getD 0xD 0).getLsbD 0
/-- INHIBIT. -/
def txInhibit (b : List Byte) : Bool := (b.getD 0xD 0).getLsbD 1
/-- LEN. -/
def txLen (b : List Byte) : Nat := (b.getD 0xC 0).toNat
/-- IDW. -/
def txIdw (b : List Byte) : Word := BitVec.ofNat 32 (leNat (slice b 8 4))

/-- The frame cannot be sent (R423). -/
def txUnsendable (s : State) (m : Fin 4) (b : List Byte) : Bool :=
  let fdf := (txIdw b).getLsbD 30
  (fdf && decide (rw s (K.BUSk_MODE m) = 0)) || (!fdf && decide (8 < txLen b)) || decide (64 < txLen b)

/-- The next length that a DLC encodes (R423). -/
def dlcLen (n : Nat) : Nat := ([0, 1, 2, 3, 4, 5, 6, 7, 8, 12, 16, 20, 24, 32, 48, 64].find? fun k => decide (n ≤ k)).getD 64

/-- A finite binary32 value rounded to an integer and saturated. -/
def satF (lo hi : Int) (x : Word) : Nat :=
  match fUnpack f32 x.toNat with
  | .num sg mm e => (BitVec.ofInt 32 (clampI lo hi (fInt true sg mm e).1)).toNat
  | .inf sg => (BitVec.ofInt 32 (if sg then lo else hi)).toNat
  | .nan _ => 0

/-- A loop value in a format of Table 10-6 (R426). -/
def mapValue (fmt : Nat) (v : Word) : List Byte :=
  if fmt = 0 then leBytes 2 (satF (-32768) 32767 v)
  else if fmt = 1 then leBytes 2 (satF 0 65535 v)
  else if fmt = 2 then leBytes 4 (satF (-(2 ^ 31)) (2 ^ 31 - 1) v)
  else if fmt = 3 then leBytes 4 (satF 0 (2 ^ 32 - 1) v)
  else if fmt = 4 then leBytes 4 v.toNat
  else leBytes 4 (satF (-(2 ^ 31)) (2 ^ 31 - 1) (fm v 0x4F000000))

/-- The mapping of buffer `i` at capture (R426): the buffer with the loops' values; the STATUS bit and event where it does not fit. -/
def txMap (s : State) (m : Fin 4) (i : Nat) (b : List Byte) : State × List Byte :=
  let mp := rw s (K.BUSk_TXMAP m i)
  if !(mp.getLsbD 31) then (s, b)
  else
    let first := (field mp 30 24).toNat
    let cnt := (field mp 20 16).toNat + 1
    let fmt := (field mp 15 12).toNat
    let ofs := (field mp 5 0).toNat
    let size := if fmt < 2 then 2 else 4
    match getArea s 5 0 with
    | some lo =>
      if txLen b < ofs + cnt * size ∨ nloop s < first + cnt then (evb (orw s (K.BUSk_STATUS m) 0x100) 0x700A (p4 m ++ p4 i), b)
      else
        let vals := (List.range cnt).flatMap fun j =>
          mapValue fmt (fm (BitVec.ofNat 32 (leNat (slice lo (16 * (first + j) + 12) 4))) (rw s (K.BUSk_TXSCALE m i)))
        (s, b.take (16 + ofs) ++ vals ++ b.drop (16 + ofs + vals.length))
    | none => (evb (orw s (K.BUSk_STATUS m) 0x100) 0x700A (p4 m ++ p4 i), b)

/-- RESTART of a captured header: a change from 0 to 1 leaves HALTED, and recovery begins (R428). -/
def busRestart (s : State) (m : Fin 4) (v : Bool) : State :=
  s.updBus m fun b =>
    if v && !b.restart && b.off = 2 then { b with restart := v, off := 1, recov := true, row := 0 } else { b with restart := v }

/-- The buffer is checked and entered (R423, R425). -/
def busEnter (s : State) (m : Fin 4) (win : Option Nat) (i : Nat) (bytes : List Byte) : State :=
  if win.isNone && s.bus[m].entered.any fun t => decide (t.buf = i) && decide (t.bytes = bytes) then s
  else if txUnsendable s m bytes then evb (orw (bump s (K.BUSk_TXFMT_CNT m)) (K.BUSk_STATUS m) 0x80) 0x7008 (p4 m ++ p4 i)
  else s.updBus m fun b => { b with entered := b.entered ++ [{ buf := i, win := win, cycle := b.cycNo, bytes := bytes, begun := false }] }

/-- The contents of an EVENT buffer that is entered and not begun are replaced by a new change of SEND (R425). -/
def busReplace (s : State) (m : Fin 4) (begun : Option (Fin 16)) (e : Nat × List Byte) : State :=
  let old := fun (t : TxFrame) => decide (t.buf = e.1) && t.win.isNone && decide (begun.map Fin.val ≠ some t.buf)
  if s.bus[m].entered.any old then busEnter (s.updBus m fun b => { b with entered := b.entered.filter fun t => !(old t) }) m none e.1 e.2 else s

/-- Phase O: the transmit buffers and RESTART are captured (R422, R426, R428). -/
def busCaptureOne (busy : BusBusy) (s : State) (m : Fin 4) : State :=
  if !(rb s (K.BUSk_ENABLE m) 0) then s
  else
    match getArea s 4 m.val with
    | none => s
    | some a =>
      let s := busRestart s m ((a.getD 0 0).getLsbD 0)
      let r := (List.range 16).foldl (fun (q : State × List (List Byte)) i =>
        let x := txMap q.1 m i (slice a (16 + 80 * i) 80)
        (x.1, q.2 ++ [x.2])) (s, [])
      let mask := maskOf ((List.range 16).filter fun i => txSend (r.2.getD i []))
      let evs := (List.range 16).filter fun i =>
        decide (field (rw s (K.BUSk_TXMODE m i)) 1 0 = 2) &&
          (match s.bus[m].send with | some p => (p.testBit i != mask.testBit i) | none => false)
      let new := evs.map fun i => (i, r.2.getD i [])
      new.foldl (fun (s : State) e => busReplace s m (busy.getD m.val none) e) (r.1.updBus m fun b =>
        { b with cap := r.2, send := some mask,
                 evp := (b.evp.filter fun e => !(evs.contains e.1)) ++ new })

/-- Phase O of every controller. -/
def busCapture (s : State) (busy : BusBusy) : State := busIds.foldl (busCaptureOne busy) s

/-- The cell of the matrix for cycle c and window w (R424). -/
def busCell (s : State) (m : Fin 4) (c w : Nat) : Nat := (rw s (K.BUSk_MATRIX m (8 * c + w / 4))).toNat / 2 ^ (8 * (w % 4)) % 256

/-- Whether a buffer may leave in the present state (Table 14-7): SCHED buffers, and EVENT buffers. A fenced module has left the schedule
(R378). -/
def busMaySched (s : State) (m : Fin 4) (i : Nat) : Bool :=
  decide (busMode s m = 2) && !s.pair.gate && !(fenced s) && !s.bus[m].noSched &&
    (s.mode = .run || s.mode = .held || (s.mode = .safe && rb s (K.BUSk_TXMODE m i) 4))
/-- EVENT buffers. -/
def busMayEvent (s : State) (m : Fin 4) : Bool := decide (busMode s m = 2) && !s.pair.gate && !(fenced s) && decide (s.mode = .run)

/-- Window `w` begins (R425). -/
def busWindow (s : State) (m : Fin 4) (w : Nat) (begun : Option (Fin 16)) : State :=
  let s := busWithdraw s m begun
  let cell := busCell s m s.bus[m].cycNo w
  if cell < 16 then
    match s.bus[m].cur[cell]? with
    | none => s
    | some b =>
      if busMaySched s m cell && decide (field (rw s (K.BUSk_TXMODE m cell)) 1 0 = 1) && !(txInhibit b) then busEnter s m (some w) cell b else s
  else if cell = 16 then
    if busMayEvent s m then s.bus[m].evp.foldl (fun s e => busEnter s m none e.1 e.2) s else s
  else s

/-- The next used window of the cycle from window `w` on. -/
def nextWindow (s : State) (m : Fin 4) (w : Nat) : Option Nat :=
  (List.range 32).find? fun i => decide (w ≤ i) && decide (rw s (K.BUSk_WOFS m i) ≠ 0xFFFFFFFF)

/-- The next window of the basic cycle begins; `begun` is the buffer whose frame is being sent then (R424, R425). -/
def execWindowStart (m : Fin 4) (begun : Option (Fin 16)) (s : State) : Answer :=
  .next (
    if !(busLive s m) then s
    else
      match nextWindow s m s.bus[m].nextWin with
      | none => s
      | some w =>
        let s := setNow s (s.bus[m].cycStart + 100 * rn s (K.BUSk_WOFS m w))
        busWindow (s.updBus m fun b => { b with nextWin := w + 1 }) m w begun)

/-- The frame as it goes on the bus: its data padded to a DLC length, BRS only with FDF. -/
def txOnBus (b : List Byte) : Word × List Byte :=
  let idw := txIdw b
  let fdf := idw.getLsbD 30
  (if fdf then idw else idw &&& 0x7FFFFFFF, if fdf then padTo (dlcLen (txLen b)) ((b.drop 16).take (txLen b)) else (b.drop 16).take (txLen b))

/-- A frame of the controller goes out; ESI is its own error state (Table 14-1). -/
def busSend (s : State) (m : Fin 4) (t : TxFrame) : State :=
  let f := txOnBus t.bytes
  bump (emit s (.bus m s.now f.1 (f.1.getLsbD 30 && decide (busState s m = 3)) f.2)) (K.BUSk_TX_CNT m)

/-- Two frames have the same identifier. -/
def sameId (a b : TxFrame) : Bool := decide (txIdw a.bytes &&& 0x3FFFFFFF = txIdw b.bytes &&& 0x3FFFFFFF)

/-- The entered frame that leaves where buffer `i` is named: of frames with its identifier the lower buffer number goes first, unless the named
one had begun already (R425). -/
def busFirst (l : List TxFrame) (i : Nat) : Option TxFrame :=
  (l.find? fun t => decide (t.buf = i)).map fun t =>
    if t.begun then t else (l.filter fun x => sameId x t && !x.begun).foldl (fun a b => if b.buf < a.buf then b else a) t

/-- The frame of buffer `i`, or of a lower buffer with the same identifier, was sent (R425). -/
def canFrameSent (m : Fin 4) (i : Fin 16) (s : State) : State :=
  match busFirst s.bus[m].entered i with
  | some t =>
    (busSend s m t).updBus m fun b =>
      { b with entered := b.entered.erase t, txdone := b.txdone ||| 2 ^ t.buf, tec := b.tec - 1, row := 0,
               evp := if t.win = none then b.evp.filter fun e => !(decide (e.1 = t.buf) && decide (e.2 = t.bytes)) else b.evp }
  | none =>
    match s.bus[m].ending.find? fun t => decide (t.buf = i.val) with
    | some t => (busSend s m t).updBus m fun b => { b with ending := [] }
    | none => s

/-- A frame was sent at the instant `at_`. -/
def execCanFrameSent (m : Fin 4) (i : Fin 16) (at_ : Nat) (s : State) : Answer :=
  .next (actAt s at_ (.canFrameSent m i at_) (canFrameSent m i))

/-- A frame that the controller was sending lost arbitration; it is retried (R425). -/
def execArbitrationLost (m : Fin 4) (i : Fin 16) (at_ : Nat) (s : State) : Answer :=
  let s := setNow s at_
  .next (
    if s.bus[m].entered.any fun t => decide (t.buf = i.val) then bump s (K.BUSk_ARBLOST_CNT m) else s)

/-! ## Bus-off (R428) -/

/-- A protocol error at the instant `at_`. -/
def execBusError (m : Fin 4) (tec rec : Nat) (at_ : Nat) (s : State) : Answer :=
  .next (actAt s at_ (.busError m tec rec at_) (busError m tec rec))

/-- BOFF_WAIT ticks have passed since bus-off: recovery begins (R428). -/
def execBusOffWaitEnd (m : Fin 4) (s : State) : Answer :=
  .next (
    if s.bus[m].off = 1 ∧ rn s (K.BUSk_BOFF_WAIT m) ≤ s.bus[m].offTicks then s.updBus m fun b => { b with recov := true } else s)

/-- 128 occurrences of 11 recessive bits: the controller is error active again (R428). -/
def busOffRecovered (m : Fin 4) (s : State) : State :=
  if s.bus[m].off = 1 ∧ s.bus[m].recov then
    ev (s.updBus m fun b => { b with off := 0, tec := 0, rerr := 0, recov := false, offTicks := 0 }) 0x7002 (p4 m)
  else s

/-- The recovery ends at the instant `at_`. -/
def execBusOffRecovered (m : Fin 4) (at_ : Nat) (s : State) : Answer :=
  .next (actAt s at_ (.busOffRecovered m at_) (busOffRecovered m))

/-! ## Enabling (R430) -/

/-- The used windows rise strictly and end before the cycle does. -/
def windowsOk (lim : Nat) : Option Nat → List Nat → Bool
  | _, [] => true
  | p, w :: r =>
    if w = 0xFFFFFFFF then windowsOk lim p r
    else decide (w < lim) && (match p with | some q => decide (q < w) | none => true) && windowsOk lim (some w) r

/-- The first failing condition of R430; 0 where the controller can be enabled. -/
def busCfgFail (s : State) (m : Fin 4) : Nat :=
  let nbt := rw s (K.BUSk_NBT m)
  let dbt := rw s (K.BUSk_DBT m)
  let n1 := (field nbt 17 10).toNat + 1
  let n2 := (field nbt 24 18).toNat + 1
  let nsjw := (field nbt 31 25).toNat + 1
  let nq := (1 + n1 + n2) * ((field nbt 4 0).toNat + 1)
  let d1 := (field dbt 12 8).toNat + 1
  let d2 := (field dbt 19 16).toNat + 1
  let dsjw := (field dbt 23 20).toNat + 1
  let dq := (1 + d1 + d2) * ((field dbt 4 0).toNat + 1)
  let k := rn s (K.BUSk_KCYC m)
  let modes := (List.range 16).map fun i => (field (rw s (K.BUSk_TXMODE m i)) 1 0).toNat
  let maps := (List.range 16).map fun i => rw s (K.BUSk_TXMAP m i)
  let cells := (List.range 128).flatMap fun i => (List.range 4).map fun j => (rw s (K.BUSk_MATRIX m i)).toNat / 2 ^ (8 * j) % 256
  if 1 < rn s (K.BUSk_MODE m) ∨ n1 < 2 ∨ k < 1 ∨ 64 < k ∨ 1000 < rn s (K.BUSk_BOFF_WAIT m) ∨ 255 < rn s (K.BUSk_BOFF_LIM m) ∨
      modes.any (fun v => decide (2 < v)) ∨ maps.any (fun v => decide (5 < field v 15 12) || decide (95 < field v 30 24)) ∨
      cells.any (fun v => decide (17 < v)) ∨ (List.range 16).any (fun i => !(ffin (rw s (K.BUSk_TXSCALE m i)))) then 1
  else if nq < 80 ∨ dq < 10 ∨ nq < dq ∨ n2 < nsjw ∨ d2 < dsjw then 2
  else if !(windowsOk (k * periodT s) none ((List.range 32).map fun i => rn s (K.BUSk_WOFS m i))) then 3
  else if cells.any (fun v => decide (v < 16) && decide (modes.getD v 0 ≠ 1)) then 4
  else if 4 < (hpFilters s m).length then 5
  else 0

/-- A write of ENABLE; answers whether it was applied. -/
def busEnable (s : State) (m : Fin 4) (v : Bool) : State × Bool :=
  if !v then
    let s := busWithdraw s m none
    ((sw s (K.BUSk_ENABLE m) 0).updBus m fun b => { b with off := 0, recov := false, row := 0, tec := 0, rerr := 0 }, true)
  else if rb s (K.BUSk_ENABLE m) 0 then (s, true)
  else
    let c := busCfgFail s m
    if c ≠ 0 then (cfgRej (ev (orw s (K.BUSk_STATUS m) 1) 0x7009 (p4 m ++ p4 c)) 0x900, false)
    else ((sw s (K.BUSk_ENABLE m) 1).updBus m fun _ => BusSt.fresh, true)

/-- A write of BUS[k].ENABLE takes effect. -/
def execBusEnableWrite (m : Fin 4) (v : Bool) (s : State) : Answer := .next (written (K.BUSk_ENABLE m) (busEnable s m v))

/-! ## The edge (R418, R419, R421, R424) -/

/-- A controller's input area (Table 14-5). -/
def busInput (s : State) (m : Fin 4) (moved : List RxFrame) : List Byte :=
  let b := s.bus[m]
  leBytes 1 (busState s m) ++ leBytes 1 (min b.tec 255) ++ leBytes 1 (min b.rerr 255) ++ leBytes 1 moved.length ++
    leBytes 2 (min b.fifoLost 65535) ++ leBytes 1 b.cycNo ++ leBytes 1 b.cycTick ++ leBytes 2 b.txdone ++
    leBytes 2 (maskOf (b.evp.map fun e => e.1)) ++ leBytes 4 b.miss ++ padTo 16 [] ++
    (b.rxb.flatMap fun x => match x.fr with
      | some r => rxEntry r ((if 0 < x.n then 1 else 0) + (if 1 < x.n then 2 else 0)) (min x.n 65535)
      | none => rxEmpty) ++
    padTo 1280 (moved.flatMap fun r => rxEntry r 0 0) ++ b.hp.flatMap hpBytes

/-- The first window that begins at `ofs` µs of the cycle or later. -/
def firstWindow (s : State) (m : Fin 4) (ofs : Nat) : Nat :=
  ((List.range 32).find? fun i => decide (ofs ≤ rn s (K.BUSk_WOFS m i))).getD 32

/-- One controller at an edge. Its input area is latched whatever its ENABLE holds; a controller that has been enabled within a basic cycle
takes its windows from this edge on. -/
def busEdgeOne (s : State) (m : Fin 4) : State :=
  let kc := max 1 (rn s (K.BUSk_KCYC m))
  let n := s.tick.n
  let s := s.updBus m fun b =>
    { b with cycTick := n % kc, cycNo := n / kc % 16, cycStart := s.now - 100 * (n % kc * periodT s),
             nextWin := if n % kc = 0 then 0 else if b.nextWin = 33 then firstWindow s m (n % kc * periodT s) else b.nextWin, cur := b.cap,
             offTicks := b.offTicks + (if b.off = 1 then 1 else 0), noSched := s.tick.prevVoid }
  let moved := s.bus[m].fifo.filter fun r => decide (r.ts < s.now)
  let s := putArea s 4 m.val (busInput s m moved)
  s.updBus m fun b =>
    { b with fifo := b.fifo.filter fun r => !(decide (r.ts < s.now)), fifoLost := 0, txdone := 0, miss := 0,
             rxb := b.rxb.map fun x => { x with n := 0 } }

/-- Every controller at an edge. -/
def busEdge (s : State) : State := busIds.foldl busEdgeOne s

/-- What a bus sends at a first RUN edge, or at the first edge at which the module is ACTIVE, is captured in that tick (R429, R376). -/
def busForget (s : State) : State := { s with bus := s.bus.map fun (b : BusSt) => { b with cap := [], cur := [], send := none, evp := [] } }

/-- The Pearl gate closes: every frame not begun is withdrawn (Table 14-7). -/
def busGate (s : State) (busy : BusBusy) : State :=
  busIds.foldl (fun (s : State) (m : Fin 4) => busWithdraw s m (busy.getD m.val none)) s

/-- DORMANT entry or power-fail: the frame in progress completes, then the controllers are off their buses (R236, R241). -/
def busStop (s : State) (busy : BusBusy) : State :=
  busIds.foldl (fun (s : State) (m : Fin 4) => (busWithdraw s m (busy.getD m.val none)).updBus m fun b => { b with ending := b.entered, entered := [] }) s

/-- The controllers after a reset. -/
def busReset (s : State) : State := { s with bus := s.bus.map fun _ => BusSt.fresh }

/-- BUS.BUSOFF. -/
def busOffMask (s : State) : Nat := maskOf ((busIds.filter fun m => decide (s.bus[m].off ≠ 0)).map Fin.val)

end Sys2Proof.Machine
end

