-- ==== Sys2Proof/Machine/Dio.lean ====
section
/-! DEFINITION. On-module digital I/O (R433 to R453). -/

namespace Sys2Proof.Machine

/-- A channel's number. -/
abbrev ChNo := Fin 32

/-- Every channel. -/
def chIds : List ChNo := List.finRange 32

/-- Update one input. -/
def State.updDi (s : State) (i : ChNo) (f : DiCh → DiCh) : State := { s with dio := { s.dio with di := s.dio.di.set i (f s.dio.di[i]) i.isLt } }
/-- Update one output. -/
def State.updDo (s : State) (i : ChNo) (f : DoCh → DoCh) : State := { s with dio := { s.dio with do_ := s.dio.do_.set i (f s.dio.do_[i]) i.isLt } }

/-- The mask of the channels that satisfy a test. -/
def chMask (p : ChNo → Bool) : Word := BitVec.ofNat 32 (maskOf ((chIds.filter p).map Fin.val))

/-! ## Inputs (R435 to R441) -/

/-- Filter limit of a channel. -/
def fLim (s : State) (i : ChNo) : Nat := rn s (K.DIO_FLIM i)

/-- A record goes behind every one of an earlier or the same instant (R439). -/
def cosInsert (r : CosRec) : List CosRec → List CosRec
  | [] => [r]
  | a :: l => if a.at_ ≤ r.at_ then a :: cosInsert r l else r :: a :: l

/-- A change-of-state record enters the queue (R439, R440). -/
def cosPush (s : State) (r : CosRec) : State :=
  if s.dio.cos.length < 64 then { s with dio := { s.dio with cos := cosInsert r s.dio.cos } }
  else
    let s := { s with dio := { s.dio with cosLost := min (s.dio.cosLost + 1) 255 } }
    evb (orw (bump s K.DIO_COS_LOST_CNT) K.DIO_STATUS 0x20) 0x8007 (p4 s.dio.cosLost)

/-- F of an input changes at the instant `t` (R437, R439, R441). -/
def diChange (s : State) (i : ChNo) (v : Bool) (t cyc : Nat) : State :=
  let s := setNow (s.updDi i fun d => { d with f := v }) t
  if i.val < 24 then s
  else
    let s := if rb s K.DIO_COS_EN i then cosPush s { at_ := t, ts := s.dio.di[i].stamp, ch := i.val, level := v } else s
    let pol := (field (rw s K.DIO_EVPOL) (2 * (i.val - 24) + 1) (2 * (i.val - 24))).toNat
    let s := wakeMark s (i.val - 24) false
    if pol.testBit (if v then 0 else 1) then trigger s (0x0200 + i.val) cyc else s

/-- Samples of the raw level, one at every multiple of 100, after instant `a` and up to `b` (R435). -/
def sampleCount (a b : Nat) : Nat := b / 100 - a / 100

/-- The number of samples after which the filter of an input reaches the bound of its raw level. -/
def diNeed (s : State) (i : ChNo) : Nat :=
  let d := s.dio.di[i]
  if d.raw then max 1 (fLim s i - d.c) else max 1 d.c

/-- `n` samples of one input, the first at `t0`; `cyc` goes with a trigger (R435, R436). -/
def diSamples (s : State) (i : ChNo) (n t0 cyc : Nat) : State :=
  let d := s.dio.di[i]
  if n = 0 then s
  else if d.init then s.updDi i fun d => { d with init := false, c := if d.raw then fLim s i else 0, f := d.raw }
  else
    let need := diNeed s i
    let c := if d.raw then min (d.c + n) (fLim s i) else d.c - n
    let s := s.updDi i fun d => { d with c := c }
    if need ≤ n ∧ d.f ≠ d.raw then diChange s i d.raw (t0 + 100 * (need - 1)) cyc else s

/-- Every sample up to instant `t` is taken, channel by channel. -/
def diAdvance (s : State) (t cyc : Nat) : State :=
  if !s.dio.on || t ≤ s.dio.sampled then s
  else
    let n := sampleCount s.dio.sampled t
    let t0 := (s.dio.sampled / 100 + 1) * 100
    let s := chIds.foldl (fun (s : State) (i : ChNo) => diSamples s i n t0 cyc) s
    { s with dio := { s.dio with sampled := t } }

/-- The raw comparator level of an input changes now; a sample in the same 10 ns interval takes the old level (R435, R439). -/
def rawLevelChange (i : Fin 32) (v : Bool) (s : State) : State :=
  let s := diAdvance s s.now 0
  if s.dio.di[i].raw = v then s else s.updDi i fun d => { d with raw := v, stamp := s.now }

/-- The raw comparator level of an input changes at the instant `at_`. -/
def execRawLevelChange (i : Fin 32) (v : Bool) (at_ : Nat) (s : State) : Answer :=
  .next (actAt s at_ (.rawLevelChange i v at_) (rawLevelChange i v))

/-- The instant at which F of an input changes if its raw level stays as it is. -/
def diDue (s : State) (i : ChNo) : Nat := (s.dio.sampled / 100 + diNeed s i) * 100

/-- The filtered state of an input changes at the sample that brings its counter to the bound (R435, R437). -/
def diFilterChange (i : Fin 32) (cyc : Nat) (s : State) : State :=
  if !s.dio.on || s.dio.di[i].init || s.dio.di[i].f = s.dio.di[i].raw then s
  else
    let t := diDue s i
    setNow (diAdvance s t cyc) t

/-- A filtered state changes; at the next edge or after it, in the tick that begins there (R54). -/
def execDiFilterChange (i : Fin 32) (cyc : Nat) (s : State) : Answer :=
  .next (if beyondEdge s (diDue s i) then holdLate s (.diFilterChange i cyc) else diFilterChange i cyc s)

/-- Wire breaks as they stand (R438). -/
def breaks (s : State) : Word := chMask (fun i => s.dio.di[i].brk && decide (i.val < 24)) &&& rw s K.DIO_WB_EN

/-- The input current has lain below the threshold for 10 ms (R438). -/
def wireBreak (i : Fin 24) (s : State) : State :=
  let k : ChNo := ⟨i.val, by omega⟩
  if !s.dio.on || !(rb s K.DIO_WB_EN i) || s.dio.di[k].brk then s
  else evb (orw (bump (s.updDi k fun d => { d with brk := true }) K.DIO_BREAK_CNT) K.DIO_STATUS 0x10) 0x8005 (p4 i)

/-- A wire break at the instant `at_`. -/
def execWireBreak (i : Fin 24) (at_ : Nat) (s : State) : Answer := .next (actAt s at_ (.wireBreak i at_) (wireBreak i))

/-- The input current has lain above the threshold for 10 ms (R438). -/
def wireBreakClear (i : Fin 24) (s : State) : State :=
  let k : ChNo := ⟨i.val, by omega⟩
  if s.dio.on && s.dio.di[k].brk then evb (s.updDi k fun d => { d with brk := false }) 0x8006 (p4 i) else s

/-- A wire break ends at the instant `at_`. -/
def execWireBreakClear (i : Fin 24) (at_ : Nat) (s : State) : Answer := .next (actAt s at_ (.wireBreakClear i at_) (wireBreakClear i))

/-! ## Outputs (R443 to R449) -/

/-- The group supply of a channel is present. -/
def groupOn (s : State) (i : ChNo) : Bool := if i.val < 16 then s.power.m1 else s.power.m2

/-- PAR code of a channel's quad. -/
def parOf (s : State) (i : ChNo) : Nat := (field (rw s K.DIO_PAR) (2 * (i.val / 4) + 1) (2 * (i.val / 4))).toNat

/-- The lowest channel of the joined set of a channel (R443). -/
def leader (s : State) (i : ChNo) : ChNo :=
  if parOf s i = 2 then ⟨i.val / 4 * 4, by omega⟩ else if parOf s i = 1 then ⟨i.val / 2 * 2, by omega⟩ else i

/-- DIO.ENABLE. -/
def dioOn (s : State) : Bool := rb s K.DIO_ENABLE 0

/-- The edge at which an exchange enters HELD: the DO word of tick n is released at it, and holds until edge m + 2 (Table 5-13). -/
def exchangeHeldEdge (s : State) : Bool := decide (s.mode = .held) && decide (s.exch.st = 4) && decide (s.exch.ticks = 0)

/-- Rows 5 to 7 of Table 15-2 for the lowest channel of a set. -/
def doCommand (s : State) (i : ChNo) : Bool :=
  let d := s.dio.do_[i]
  if s.mode = .safe then (if rb s K.DIO_SAFEKEEP i then d.dec else rb s K.DIO_SAFEVAL i)
  else if s.mode = .held && !(exchangeHeldEdge s) then d.dec
  else s.dio.cap.getLsbD i

/-- The first edge of a start that ends in SAFE: the outputs stay off at it as at a first RUN edge (R230, Table 18-4). -/
def firstSafeEdge (s : State) : Bool := decide (s.mode = .safe) && decide (s.tick.k = 1) && !s.tick.newprog

/-- Rows 2 and 3 of Table 15-2, R230 and R378: the outputs are off. -/
def doBlocked (s : State) : Bool :=
  !(ticking s.mode) || !(dioOn s) || s.power.pf.isSome || !(drives s.role) || s.pair.gate || fenced s || firstSafeEdge s

/-- What a channel is driven to now. -/
def setRel (s : State) (i : ChNo) (v : Bool) : State :=
  s.updDo i fun d => { d with rel := v, relTs := if d.rel = v then d.relTs else s.now }

/-- Table 15-2 for the set of which `i` is the lowest channel: a wait that is over makes a try where the set is commanded on (R447). -/
def doDecide (s : State) (i : ChNo) : State × Bool :=
  let d := s.dio.do_[i]
  if doBlocked s then (s, false)
  else if d.latched || d.retry = 1 then (s, false)
  else if d.retry = 2 then
    if doCommand s i then
      (bump (s.updDo i fun d => { d with retry := 3, until_ := s.now + 100000 * rn s K.DIO_RETRY_MS }) K.DIO_RETRY_CNT, true)
    else (s, false)
  else (s, doCommand s i)

/-- The release of one channel at an edge (R444). -/
def doRelease (s : State) (i : ChNo) : State :=
  let l := leader s i
  if l ≠ i then
    let v := s.dio.do_[l].dec
    setRel (s.updDo i fun d => { d with dec := v }) i (v && groupOn s i)
  else
    let r := doDecide s i
    setRel (r.1.updDo i fun d => { d with dec := r.2 }) i (r.2 && groupOn s i)

/-- A switch stayed in current limit for 2 ms or tripped (R443, R446, R447): every member of its set switches off. -/
def outputOverload (i : Fin 32) (s : State) : State :=
  let l := leader s i
  if !(dioOn s) || !s.dio.do_[i].rel || !(groupOn s i) then s
  else
    let failed := s.dio.do_[l].retry = 3
    let s := chIds.foldl (fun (s : State) (j : ChNo) => if leader s j = l then setRel s j false else s) s
    let s := s.updDo l fun d => { d with ovl := true, retry := 1, until_ := s.now + 100000 * rn s K.DIO_RETRY_MS, left := none,
                                         fails := if failed then d.fails + 1 else d.fails }
    let s := evb (orw (bump s K.DIO_OVL_CNT) K.DIO_STATUS 1) 0x8001 (p4 l ++ p8 s.tick.n)
    let lim := rn s K.DIO_RETRY_LIM
    if failed ∧ lim ≠ 0 ∧ lim ≤ s.dio.do_[l].fails then
      ev (orw (s.updDo l fun d => { d with latched := true, retry := 0 }) K.DIO_STATUS 2) 0x8002 (p4 l ++ p4 s.dio.do_[l].fails)
    else s

/-- An overload at the instant `at_`. -/
def execOutputOverload (i : Fin 32) (at_ : Nat) (s : State) : Answer := .next (actAt s at_ (.outputOverload i at_) (outputOverload i))

/-- The wait of an overloaded channel is over; the next edge that commands it on is a try (R447). -/
def execRetryWaitEnd (i : Fin 32) (s : State) : Answer :=
  .next (
    let d := s.dio.do_[i]
    if d.retry ≠ 1 ∨ d.left ≠ none ∨ !(dioOn s) then s
    else (setNow s d.until_).updDo i fun d => { d with retry := 2 })

/-- A try has held for RETRY_MS without overload (R447). -/
def execRetryHoldEnd (i : Fin 32) (s : State) : Answer :=
  .next (
    let d := s.dio.do_[i]
    if d.retry ≠ 3 then s
    else (setNow s d.until_).updDo i fun d => { d with retry := 0, ovl := false, fails := 0 })

/-- The load current of an on channel lay below 5 mA for 10 ms (R449). -/
def openLoad (i : Fin 32) (s : State) : State :=
  if !(dioOn s) || !(rb s K.DIO_OL_EN i) || !s.dio.do_[i].rel || !(groupOn s i) || s.dio.do_[leader s i].openLd then s
  else evb (orw (s.updDo (leader s i) fun d => { d with openLd := true }) K.DIO_STATUS 8) 0x8004 (p4 (leader s i))

/-- An open load at the instant `at_`. -/
def execOpenLoad (i : Fin 32) (at_ : Nat) (s : State) : Answer := .next (actAt s at_ (.openLoad i at_) (openLoad i))

/-- The load current lay at 5 mA or more for 10 ms (R449). -/
def openLoadClear (i : Fin 32) (s : State) : State := s.updDo (leader s i) fun d => { d with openLd := false }

/-- An open load ends at the instant `at_`. -/
def execOpenLoadClear (i : Fin 32) (at_ : Nat) (s : State) : Answer := .next (actAt s at_ (.openLoadClear i at_) (openLoadClear i))

/-- A group supply vanishes: the drive of its outputs switches off, waits pause (R223, R447). `g` is 0 for M1. -/
def dioGroupLost (s : State) (g : Fin 2) : State :=
  let s := chIds.foldl (fun (s : State) (i : ChNo) =>
    if i.val / 16 = g.val then
      (setRel s i false).updDo i fun d => if d.retry = 1 ∧ d.left = none then { d with left := some (d.until_ - s.now) } else d
    else s) s
  { s with dio := if g = 0 then { s.dio with m1Ts := s.now } else { s.dio with m2Ts := s.now } }

/-- A group supply is present again: waits go on; the outputs follow at the next edge. -/
def dioGroupBack (s : State) (g : Fin 2) : State :=
  let s := chIds.foldl (fun (s : State) (i : ChNo) =>
    if i.val / 16 = g.val then
      s.updDo i fun d => match d.left with | some t => { d with until_ := s.now + t, left := none } | none => d
    else s) s
  { s with dio := if g = 0 then { s.dio with m1Ts := s.now } else { s.dio with m2Ts := s.now } }

/-- Every output switches off at once: power-fail, RESET, DORMANT, a closed gate (R444). -/
def dioAllOff (s : State) : State :=
  chIds.foldl (fun (s : State) (i : ChNo) => setRel (s.updDo i fun d => { d with dec := false }) i false) s

/-! ## Phase O and the edge (R440, R444, R445, R448, R450) -/

/-- Phase O: DO is captured; a QCLR bit that rose clears a latched channel. -/
def dioCapture (s : State) : State :=
  match getArea s 1 0 with
  | none => s
  | some a =>
    let q : Word := BitVec.ofNat 32 (leNat (slice a 4 4))
    let old := s.dio.qclr
    let s := { s with dio := { s.dio with cap := BitVec.ofNat 32 (leNat (slice a 0 4)), qclr := some q } }
    match old with
    | none => s
    | some p =>
      chIds.foldl (fun (s : State) (i : ChNo) =>
        if q.getLsbD i && !(p.getLsbD i) && s.dio.do_[i].latched then
          ev (s.updDo i fun d => { d with latched := false, ovl := false, fails := 0, retry := 0 }) 0x8008 (p4 i)
        else s) s

/-- Readback as latched at an edge: bits of a group without supply read 0 (R445). -/
def dioReadback (s : State) (level : Word) : Word := level &&& chMask fun i => groupOn s i

/-- A mismatch of one channel at an edge (R445): 0 none, 1 ON-LOW, 2 OFF-HIGH. -/
def mismatch (s : State) (rb_ : Word) (i : ChNo) : Nat :=
  let d := s.dio.do_[i]
  let sup := if i.val < 16 then s.dio.m1Ts else s.dio.m2Ts
  if !(groupOn s i) || !(dioOn s) || s.now < d.relTs + 6000 || s.now < sup + 6000 then 0
  else if d.rel && !(rb_.getLsbD i) && !s.dio.do_[leader s i].ovl then 1
  else if !d.rel && rb_.getLsbD i then 2
  else 0

/-- The mismatch of a set, on its lowest channel. -/
def setMismatch (s : State) (rb_ : Word) (i : ChNo) : Nat :=
  if leader s i ≠ i then 0
  else ((chIds.filter fun j => decide (leader s j = i)).map fun j => mismatch s rb_ j).foldl (fun a b => if a = 0 then b else a) 0

/-- A record as bytes. -/
def cosBytes (r : CosRec) : List Byte :=
  leBytes 8 r.ts ++ leBytes 1 r.ch ++ leBytes 1 (if r.level then 1 else 0) ++ [0, 0] ++ leBytes 4 (r.at_ - r.ts)

/-- The digital I/O at an edge; `level` are the readback comparators just before it. -/
def dioEdge (s : State) (level : Word) : State :=
  let s := diAdvance s (s.now - 1) 0
  let brk := breaks s
  let di := chMask (fun i => s.dio.di[i].f) &&& ~~~brk
  let rbk := dioReadback s level
  let mm := chIds.map fun i => (i, setMismatch s rbk i)
  let s := mm.foldl (fun (s : State) (q : ChNo × Nat) =>
    if q.2 = 0 then s else evb (orw (bump s K.DIO_MISMATCH_CNT) K.DIO_STATUS 4) 0x8003 (p4 q.1 ++ p4 q.2)) s
  let mmMask := chMask fun i => decide (setMismatch s rbk i ≠ 0)
  let s := chIds.foldl doRelease s
  let ready := (s.dio.cos.filter fun r => decide (r.at_ < s.now)).take 32
  let word := fun (w : Word) => leBytes 4 w.toNat
  let lat := chMask fun i => s.dio.do_[i].latched
  let opn := chMask fun i => s.dio.do_[i].openLd
  let s := putArea s 1 0 (word di ++ word brk ++ word rbk ++ word (chMask fun i => s.dio.do_[i].ovl) ++ word lat ++ word mmMask ++ word opn ++
    leBytes 1 ready.length ++ leBytes 1 s.dio.cosLost ++ [0, 0] ++ padTo 512 (ready.flatMap cosBytes))
  let s := { s with dio := { s.dio with cos := s.dio.cos.drop ready.length, cosLost := 0 } }
  sw (sw (sw s K.DIO_DI_STATE di) K.DIO_RB rbk) K.DIO_DO_STATE (chMask fun i => s.dio.do_[i].rel)

/-! ## Enabling and resets (R434, R436, R451) -/

/-- The filters start: the next sample sets each counter. -/
def dioFilterStart (s : State) : State :=
  { s with dio := { s.dio with on := true, sampled := s.now, di := s.dio.di.map fun d => { d with init := true } } }

/-- A write of DIO.ENABLE. -/
def dioEnable (s : State) (v : Bool) : State × Bool :=
  if v then
    if dioOn s then (s, true)
    else
      let s := dioFilterStart (diAdvance s s.now 0)
      (sw { s with dio := { s.dio with qclr := none } } K.DIO_ENABLE 1, true)
  else (sw s K.DIO_ENABLE 0, true)

/-- A channel whose WB_EN bit is 0 has no break (R438). -/
def wbForget (s : State) : State :=
  chIds.foldl (fun (s : State) (i : ChNo) => if rb s K.DIO_WB_EN i then s else s.updDi i fun d => { d with brk := false }) s

/-- A configuration word of the block changes: the samples before it are taken with the old filter limits (R435). -/
def dioConfig (s : State) (f : State → State) : State := wbForget (f (diAdvance s s.now 0))

/-- The stages, filters and wire-break detection stop: the RESET from power-up, and the one in which a power-fail sequence ends (R434). -/
def dioStop (s : State) : State := { s with dio := { s.dio with on := false } }

/-- A write of DIO.ENABLE takes effect. -/
def execDioEnableWrite (v : Bool) (s : State) : Answer := .next (dioEnable s v).1

/-- An output after a reset. -/
def DoCh.reset : DoCh :=
  { dec := false, rel := false, relTs := 0, latched := false, ovl := false, retry := 0, until_ := 0, left := none, fails := 0, openLd := false }

/-- The unit after a power-up, a level-2 restart or a power return; the raw levels are the pins'. `on` where the filters start. -/
def dioReset (s : State) (on : Bool) : State :=
  { s with dio := { on := on, sampled := s.now, di := s.dio.di.map fun d => { d with c := 0, f := false, init := true, brk := false },
                    do_ := Vector.replicate 32 DoCh.reset, cos := [], cosLost := 0, cap := 0, qclr := none, m1Ts := s.dio.m1Ts, m2Ts := s.dio.m2Ts } }

/-! ## Happenings of the tick that has begun (R51, R54) -/

/-- A happening that waited for this tick acts. -/
def lateEvent (s : State) (c : Late) : State :=
  match c with
  | .eventTrigger src at_ cyc => triggerAt (setNow s at_) src at_ cyc
  | .encTransition k a b z at_ => encTransition k a b z (setNow s at_)
  | .encIndex k at_ cyc => encIndex k cyc (setNow s at_)
  | .encLineBreak k line at_ => encLineBreak k line (setNow s at_)
  | .encLineReturn k line at_ => encLineReturn k line (setNow s at_)
  | .serialSample k start data nE nW crc at_ => serialSample k start data nE nW crc (setNow s at_)
  | .canFrameReceive m f at_ cyc => canFrameReceive m f cyc (setNow s at_)
  | .canFrameSent m i at_ => canFrameSent m i (setNow s at_)
  | .busError m tec rec at_ => busError m tec rec (setNow s at_)
  | .busOffRecovered m at_ => busOffRecovered m (setNow s at_)
  | .rawLevelChange i v at_ => rawLevelChange i v (setNow s at_)
  | .diFilterChange i cyc => diFilterChange i cyc s
  | .wireBreak i at_ => wireBreak i (setNow s at_)
  | .wireBreakClear i at_ => wireBreakClear i (setNow s at_)
  | .outputOverload i at_ => outputOverload i (setNow s at_)
  | .openLoad i at_ => openLoad i (setNow s at_)
  | .openLoadClear i at_ => openLoadClear i (setNow s at_)

/-- Everything that waited for the tick that has begun, in its order. -/
def lateEvents (s : State) : State := s.tick.late.foldl lateEvent { s with tick := { s.tick with late := [] } }

end Sys2Proof.Machine
end

