-- ==== Sys2Proof/Machine/Lines.lean ====
section
/-! DEFINITION. The lines of the journals and of the executive's retained state (R184, R185, R190, Table 6-3), and the home image with its
parity (R188, R189). Where the manual gives a journal or the executive's state no layout, the lines have the one of Assumption 13. -/

namespace Sys2Proof.Machine

/-! ## Journal lines (Table 6-3) -/

/-- Bytes of a line up to its check, and the CRC-32 of R199 over bytes 0 to 59 in bytes 60 to 63. -/
def chkLine (b : List Byte) : List Byte :=
  let c := padTo 60 b
  c ++ leBytes 4 (crc32 c)

/-- A session header (Table 20-3). -/
def SessHdr.line (h : SessHdr) : List Byte :=
  chkLine (leBytes 8 h.nonce.toNat ++ leBytes 4 h.next ++ leBytes 1 (if h.open_ then 1 else 0) ++ leBytes 1 (if h.priv then 1 else 0) ++
    leBytes 1 h.hkey ++ [0] ++ padTo 32 h.key ++ padTo 8 h.hrand8)

/-- A request result entry (Table 6-6). -/
def ResEntry.line (e : ResEntry) : List Byte :=
  leBytes 4 e.seq ++ leBytes 2 e.kind ++ leBytes 2 e.status ++ leBytes 8 e.tick ++ leBytes 2 e.data.length ++ [0, 0] ++ padTo 44 e.data

/-- A force in its 32 bytes of the force table: SYMID, value, index, TYPE, creation number (R168). -/
def Force.entry (f : Force) : List Byte :=
  leBytes 8 f.symid.toNat ++ leBytes 8 f.value.toNat ++ leBytes 2 f.index ++ leBytes 1 f.ty ++ [1] ++ padTo 12 (leBytes 8 f.num)

/-- The force in an entry of the table. -/
def forceAt (j : Journals) (i : Nat) : List Byte :=
  match j.forces.find? fun f => decide (f.at_ = i) with | some f => f.entry | none => padTo 32 []

/-- A line of the escalation journal (Table 18-3). -/
def Esc.line (e : Esc) (i : Nat) : List Byte :=
  if i = 0 then
    chkLine (leBytes 4 e.powerup ++ leBytes 4 ((if e.safe then 1 else 0) + 256 * (if e.safe then e.safeCause else 0)) ++ leBytes 4 e.next ++
      leBytes 4 e.clearPu ++ leBytes 8 e.clearTs)
  else
    chkLine ((List.range 3).flatMap fun k => match e.entries.getD (3 * (i - 1) + k) none with
      | some q => leBytes 1 q.level ++ leBytes 1 q.cls ++ leBytes 2 q.cause ++ leBytes 4 q.powerup ++ leBytes 8 q.tb
      | none => padTo 16 [])

/-- The carrier record (Table 21-9). -/
def CarRec.line (c : CarRec) : List Byte :=
  chkLine (leBytes 1 c.state ++ leBytes 1 c.slot ++ leBytes 1 c.holder ++ leBytes 1 c.opkind ++ leBytes 4 c.length ++ leBytes 4 c.erasedTo ++
    leBytes 4 c.opsect ++ leBytes 4 c.opofs ++ leBytes 2 c.oplen ++ leBytes 1 (if c.scratch then 1 else 0) ++ leBytes 1 (if c.prot then 1 else 0) ++
    padTo 16 c.vmeas)

/-- A pair of numbers that may be absent. -/
def pairBytes : Option (Nat × Nat) → List Byte
  | some q => leBytes 4 1 ++ leBytes 4 q.1 ++ leBytes 4 q.2
  | none => padTo 12 []

/-- The exchange record (R178). -/
def exLine : Option ExRec → List Byte
  | some e => padTo 64 (leBytes 4 (e.slot + 1) ++ padTo 16 e.progid ++ pairBytes e.req)
  | none => padTo 64 []

/-- A line of the panel journal: lines 0 to 47 the intended image, 48 to 95 the pending image, 96 and 97 the region journal (R461). -/
def PanelJ.lineBytes (q : PanelJ) (i : Nat) : List Byte :=
  if i < 48 then cellBytes 0 q.intended (64 * i) 64
  else if i < 96 then cellBytes 0 q.pendImg (64 * (i - 48)) 64
  else if i = 96 then
    padTo 64 (leBytes 4 (maskOf q.queue) ++ padTo 16 (q.queue.map (BitVec.ofNat 8)) ++ leBytes 1 (q.runR.getD 0xFF) ++ leBytes 1 q.runReq ++
      leBytes 1 (if q.runAlt then 1 else 0) ++ leBytes 1 (if q.intr then 1 else 0) ++ leBytes 4 q.line ++ leBytes 4 q.phases)
  else if i = 97 then padTo 64 (padTo 16 (q.req.map (BitVec.ofNat 8)) ++ padTo 16 (q.done.map (BitVec.ofNat 8)))
  else padTo 64 []

/-- Journal lines at which the parts of Table 6-3 begin. -/
abbrev jlNet : Nat := 8
/-- Start flags. -/
abbrev jlFlags : Nat := 9
/-- The exchange record, in the part that Table 6-3 reserves. -/
abbrev jlExch : Nat := 10
/-- The next creation number, in the same part. -/
abbrev jlNum : Nat := 11
/-- Request results. -/
abbrev jlRes : Nat := 16
/-- Force table. -/
abbrev jlForce : Nat := 2064
/-- Panel journal. -/
abbrev jlPanel : Nat := 2304
/-- Evidence record. -/
abbrev jlEvid : Nat := 2560
/-- Escalation counters. -/
abbrev jlEsc : Nat := 2816
/-- Carrier sector map. -/
abbrev jlCar : Nat := 2880

/-- Line of the result entry of a session slot and sequence number (R208). -/
def resLine (slot seq : Nat) : Nat := jlRes + 256 * slot + seq % 256

/-- Contents of line `i` of the 8,192 journal lines of one copy. -/
def jBytes (j : Journals) (i : Nat) : List Byte :=
  if h : i < 8 then j.hdrs[i].line
  else if i = jlNet then chkLine (leBytes 4 j.ip.toNat ++ leBytes 4 j.mask.toNat ++ leBytes 4 j.gw.toNat)
  else if i = jlFlags then chkLine (leBytes 1 ((if j.hold then 1 else 0) + (if j.cold then 2 else 0)))
  else if i = jlExch then exLine j.exr
  else if i = jlNum then padTo 64 (leBytes 8 j.forceNum)
  else if i < jlRes then padTo 64 []
  else if i < jlForce then (match j.results.find? fun e => decide (resLine e.slot e.seq = i) with | some e => e.line | none => padTo 64 [])
  else if i < jlForce + 128 then forceAt j (2 * (i - jlForce)) ++ forceAt j (2 * (i - jlForce) + 1)
  else if jlPanel ≤ i ∧ i < jlEvid then j.panel.lineBytes (i - jlPanel)
  else if jlEvid ≤ i ∧ i < jlEsc then slice ((j.evid.getD ((i - jlEvid) / 16) { bytes := [] }).bytes) (64 * ((i - jlEvid) % 16)) 64
  else if jlEsc ≤ i ∧ i < jlEsc + 16 then j.esc.line (i - jlEsc)
  else if i = jlCar then j.car.line
  else padTo 64 []

/-- Addresses at which two byte stores differ. -/
def cellsDiff (a b : List Host.Cell) : List Nat :=
  ((a.filter fun c => !(b.contains c)) ++ b.filter fun c => !(a.contains c)).map Prod.fst

/-- Elements that are in one list and not in the other. -/
def oneSided {α : Type} [DecidableEq α] (a b : List α) : List α := (a.filter fun x => !(b.contains x)) ++ b.filter fun x => !(a.contains x)

/-- Journal lines in which two contents of the journals can differ. -/
def jTouched (a b : Journals) : List Nat :=
  if a = b then []
  else
    ((List.range 8).filter fun i => if h : i < 8 then decide (a.hdrs[i] ≠ b.hdrs[i]) else false) ++
      (if a.ip = b.ip ∧ a.mask = b.mask ∧ a.gw = b.gw then [] else [jlNet]) ++ (if a.hold = b.hold ∧ a.cold = b.cold then [] else [jlFlags]) ++
      (if a.exr = b.exr then [] else [jlExch]) ++ (if a.forceNum = b.forceNum then [] else [jlNum]) ++
      ((oneSided a.results b.results).map fun e => resLine e.slot e.seq) ++
      ((oneSided a.forces b.forces).map fun f => jlForce + f.at_ / 2) ++
      (if a.panel = b.panel then [] else
        ((cellsDiff a.panel.intended b.panel.intended).map fun o => jlPanel + o / 64) ++
          ((cellsDiff a.panel.pendImg b.panel.pendImg).map fun o => jlPanel + 48 + o / 64) ++ [jlPanel + 96, jlPanel + 97]) ++
      (if a.evid = b.evid then [] else (List.range 256).map fun i => jlEvid + i) ++
      (if a.esc = b.esc then [] else (List.range 11).map fun i => jlEsc + i) ++ (if a.car = b.car then [] else [jlCar])

/-- A list of numbers in ascending order, each once. -/
def sortNat (l : List Nat) : List Nat := l.foldl (fun r x => insertNat x r) []

/-- Journal lines that differ between two contents of the journals, in ascending order. -/
def jChanged (a b : Journals) : List Nat := sortNat ((jTouched a b).filter fun i => decide (jBytes a i ≠ jBytes b i))

/-! ## Lines of the executive's retained state (R185, R327) -/

/-- The 32 bytes of a loop's retained record (Table 10-4). -/
def LoopRec.bytes (q : LoopRec) : List Byte := [q.i, q.yp, q.d, q.p, q.v, q.a, q.uf, q.st].flatMap fun w => leBytes 4 w.toNat

/-- An item of a batch or of a force change. -/
def itemBytes (i : EditItem) : List Byte := leBytes 8 i.symid.toNat ++ leBytes 2 i.index ++ leBytes 2 i.ty ++ leBytes 8 i.value.toNat
/-- A value-edit batch. -/
def Batch.bytes (b : Batch) : List Byte := leBytes 4 b.slot ++ leBytes 4 b.seq ++ leBytes 8 b.items.length ++ b.items.flatMap itemBytes
/-- A force change that waits. -/
def ForceChg.bytes (c : ForceChg) : List Byte := leBytes 4 c.slot ++ leBytes 4 c.seq ++ leBytes 4 (if c.set then 1 else 0) ++ itemBytes c.item

/-- Line of a retained word of a LOOP or TUNE block, 16 words a line; WAKE_CTRL stands with the single values. -/
def wordLine (k : Nat) : Nat :=
  if k / 65536 = 0x600 then 1024 + (k % 65536 - 0x100) / 16 else if k / 65536 = 0x700 then 1536 + (k % 65536 - 0x100) / 16 else 48

/-- Contents of line `i` of the 4,096 lines of the executive's retained state: loop records, single values, batches, force changes, words. -/
def xBytes (x : ExecRet) (i : Nat) : List Byte :=
  if h : i < 48 then (x.loops[2 * i]'(by omega)).bytes ++ (x.loops[2 * i + 1]'(by omega)).bytes
  else if i = 48 then
    padTo 64 (leBytes 4 x.epoch ++ leBytes 4 (if x.incomplete then 1 else 0) ++ leBytes 4 x.mapEntry ++ leBytes 4 x.mapOfs ++
      pairBytes (x.swapReq.map fun r => (r.1, r.2.1)) ++ leBytes 4 ((x.swapReq.map fun r => r.2.2).getD 0) ++
      leBytes 4 ((kvGet x.words K.POWER_WAKE_CTRL).getD (resetWord K.POWER_WAKE_CTRL)).toNat)
  else if i < 217 then
    (match x.edits[(i - 49) / 21]? with | some b => slice b.bytes (64 * ((i - 49) % 21)) 64 | none => padTo 64 [])
  else if i < 1024 then (match x.changes[i - 217]? with | some c => padTo 64 c.bytes | none => padTo 64 [])
  else if i < 2048 then
    let k := if i < 1536 then 0x6000100 + 16 * (i - 1024) else 0x7000100 + 16 * (i - 1536)
    (List.range 16).flatMap fun o => leBytes 4 ((kvGet x.words (k + o)).getD (resetWord (k + o))).toNat
  else padTo 64 []

/-- Lines of the executive's retained state in which two contents can differ. -/
def xTouched (a b : ExecRet) : List Nat :=
  if a = b then []
  else
    ((List.range 96).filter fun n => if h : n < 96 then decide (a.loops[n] ≠ b.loops[n]) else false).map (· / 2) ++ [48] ++
      (if a.edits = b.edits then [] else (List.range 168).map fun i => 49 + i) ++
      (if a.changes = b.changes then [] else (List.range (max a.changes.length b.changes.length)).map fun i => 217 + i) ++
      (oneSided a.words b.words).map fun q => wordLine q.1

/-- Lines of the executive's retained state that differ, in ascending order. -/
def xChanged (a b : ExecRet) : List Nat := sortNat ((xTouched a b).filter fun i => decide (xBytes a i ≠ xBytes b i))

/-- First home line of the executive's retained state (Table 6-1). -/
abbrev execLine0 : Nat := 126976
/-- MRAM line number of the first journal line of copy A (Table 6-2). -/
abbrev jLine0 : Nat := 200704

/-! ## Journal copies (R190, R191) -/

/-- Journal lines are written, to copy A first and to copy B second; a line that is written is sound again (R188). -/
def Ret.putJ (r : Ret) (j : Journals) (lines : List Nat) : Ret :=
  let r := { r with jd := j }
  { r with jb := r.jd, badJourn := r.badJourn.filter fun b => !(lines.contains b.1) }

/-- The journal lines that a new content changes are written directly. -/
def Ret.writeJ (r : Ret) (j : Journals) : Ret := r.putJ j (jChanged r.jd j)

/-! ## The home image and its parity (R188, R189) -/

/-- Exclusive-or into one byte of a byte store. -/
def cellXor (m : List Host.Cell) (a : Nat) (v : Byte) : List Host.Cell := cellSet 0 m a (cellGet 0 m a ^^^ v)

/-- Place in the parity lines of a home offset: 16 lines make a stripe. -/
def parityAt (o : Nat) : Nat := o / 1024 * 64 + o % 64

/-- One byte of the home image is written, and its parity follows by the old contents. -/
def Ret.homeByte (q : Ret) (o : Nat) (v : Byte) : Ret :=
  { q with homePar := cellXor q.homePar (parityAt o) (cellGet 0 q.home o ^^^ v), home := cellSet 0 q.home o v }

/-- A byte of a failed home line, from its stripe's parity and the other lines. -/
def Ret.rebuildByte (q : Ret) (o : Nat) : Byte :=
  (List.range 16).foldl (fun (v : Byte) (i : Nat) =>
    let p := o / 1024 * 1024 + 64 * i + o % 64
    if p = o then v else v ^^^ cellGet 0 q.home p) (cellGet 0 q.homePar (parityAt o))

/-- A failed home line is rebuilt from its stripe parity and rewritten (R211). -/
def Ret.rebuildLine (q : Ret) (l : Nat) : Ret :=
  { q with home := (List.range 64).foldl (fun m i => cellSet 0 m (64 * l + i) (q.rebuildByte (64 * l + i))) q.home
           badHome := q.badHome.filter fun x => decide (x ≠ l) }

/-- A home line is written whole: it is sound again (R188). The parity of a failed line's old contents is that of the line it held. -/
def Ret.homeWrite (q : Ret) (l : Nat) (b : List Byte) : Ret :=
  let q := if q.badHome.contains l then q.rebuildLine l else q
  (List.range 64).foldl (fun (q : Ret) (i : Nat) => q.homeByte (64 * l + i) (b.getD i 0)) q

/-- The parity lines of a home image (R213). -/
def parityOf (home : List Host.Cell) : List Host.Cell := home.foldl (fun p c => cellXor p (parityAt c.1) c.2) []

end Sys2Proof.Machine
end

