-- ==== Sys2Proof/Machine/Panel.lean ====
section
/-! DEFINITION. Status panel driver (R454 to R470). -/

namespace Sys2Proof.Machine

/-- Update the driver. -/
def State.updPanel (s : State) (f : Panel → Panel) : State := { s with panel := f s.panel }
/-- Journal lines that the executive changes are counted against its reserve, one and a half lines each (R201). -/
def addJournal (s : State) (n : Nat) : State :=
  { s with ret := { s.ret with resv := s.ret.resv + 3 * n } }
/-- Update the panel journal, in `n` journal lines; in DORMANT and in the power-fail sequence they are written directly (R191). -/
def State.updPJ (s : State) (n : Nat) (f : PanelJ → PanelJ) : State :=
  let r := { s.ret with j := { s.ret.j with panel := f s.ret.j.panel } }
  addJournal { s with ret :=
    if s.mode = .dormant ∨ s.power.pf.isSome then r.writeJ { r.jd with panel := f r.jd.panel } else r } n
/-- The panel journal. -/
abbrev panelJ (s : State) : PanelJ := s.ret.j.panel

/-! ## Regions (R458) -/

/-- REGr. -/
def regWord (s : State) (r : Nat) : Word := rw s (K.PANEL_REG r)
/-- The region is defined. -/
def regOn (s : State) (r : Nat) : Bool := (regWord s r).getLsbD 31
/-- Lines of a region in writing order: plane and common. -/
def regLines (s : State) (r : Nat) : List (Nat × Nat) :=
  let w := regWord s r
  let c0 := (field w 11 8).toNat
  let c1 := (field w 15 12).toNat
  if !(regOn s r) then []
  else (bitList 3 (field w 2 0).toNat).flatMap fun p => (List.range (c1 + 1 - c0)).map fun i => (p, c0 + i)
/-- A segment lies in a region. -/
def regSeg (s : State) (r x : Nat) : Bool :=
  let w := regWord s r
  decide ((field w 22 16).toNat ≤ x) && decide (x ≤ (field w 30 24).toNat)

/-- First byte of a line in an image (R460). -/
def lineOfs (l : Nat × Nat) : Nat := (16 * l.1 + l.2) * 64

/-- The nibbles of a region taken from one byte, the others from another. -/
def mixCells (s : State) (r i : Nat) (new old : Byte) : Byte :=
  (if regSeg s r (2 * i) then new &&& 0x0F else old &&& 0x0F) ||| (if regSeg s r (2 * i + 1) then new &&& 0xF0 else old &&& 0xF0)

/-- The cells of a region copied from `src` into an image. -/
def copyRegion (s : State) (r : Nat) (src : Nat → Byte) (img : List Host.Cell) : List Host.Cell :=
  (regLines s r).foldl (fun img l => (List.range 64).foldl (fun img i =>
    let a := lineOfs l + i
    cellSet 0 img a (mixCells s r i (src a) (cellGet 0 img a))) img) img

/-! ## Rails and lines (R456, R457, R459) -/

/-- Table 16-2: the driver writes recovery and queue. In DORMANT it completes the region in progress (R236). -/
def panelWorks (s : State) : Bool :=
  (ticking s.mode || (decide (s.mode = .dormant) && (panelJ s).runR.isSome)) && drives s.role && rb s K.PANEL_ENABLE 0 && !s.panel.fault && s.power.pf.isNone

/-- The rails are discharged. -/
def railsDischarge (s : State) : State :=
  s.updPanel fun p => { p with rails := if p.rails = 0 then 0 else 3, wantStart := false, lineAt := none }

/-- Time of a line of a plane in 10 ns units. -/
def lineTime (s : State) (p : Nat) : Nat := 100 * (rn s (K.PANELk_TRST p) + rn s (K.PANELk_TSEL p) + rn s (K.PANELk_TEVO p))

/-- Grey of a cell as it is driven: BLINKGREY in the alternate phase of the running region (R464). -/
def driveGrey (s : State) (l : Nat × Nat) (x : Nat) : Nat :=
  match (panelJ s).runR with
  | some r =>
    if (panelJ s).runAlt && regSeg s r x then (field (rw s (K.PANELk_BLINKGREY l.1)) 3 0).toNat
    else (cellGet 0 (panelJ s).intended (lineOfs l + x / 2)).toNat / (if x % 2 = 0 then 1 else 16) % 16
  | none => 0

/-- A line write begins now: what the pins show of it. -/
def lineBegin (s : State) (l : Nat × Nat) : State :=
  let s := s.updPanel fun p => { p with lineAt := some s.now }
  emit s (.panel l.1 l.2 s.now
    ([K.PANELk_VC l.1, K.PANELk_VSEL l.1, K.PANELk_VS l.1, K.PANELk_TRST l.1, K.PANELk_TSEL l.1, K.PANELk_TEVO l.1].map (rn s))
    ((List.range (min 128 (rn s K.PANEL_SEGS))).map fun x => rn s (K.PANELk_GREY l.1 (driveGrey s l x))))

/-- A line is to be written now: the rails start if they are off (R456, R459). -/
def lineDue (s : State) (l : Nat × Nat) : State :=
  if s.panel.rails = 2 then lineBegin s l
  else if s.panel.rails = 0 then s.updPanel fun p => { p with rails := 1 }
  else if s.panel.rails = 3 then s.updPanel fun p => { p with wantStart := true }
  else s

/-- The running region has been written (R463, R467). A request that a later one has superseded gives no DONE value. -/
def regionEnd (s : State) (r : Nat) : State :=
  let n := (regLines s r).length
  let j := panelJ s
  let s' := s.updPJ 1 fun q => { q with
    runR := none, intr := false, line := 0
    done := if j.intr && q.queue.contains r then q.done else q.done.set r q.runReq }
  let s' := s'.updPanel fun p => { p with recov := false, idleTs := s.now }
  if j.intr then ev (bump (orw s' K.PANEL_STATUS 4) K.PANEL_RECOVER_CNT) 0x9002 (p4 r ++ p4 n) else s'

/-- The next line of the running region, if the driver works. -/
def panelNext (s : State) : State :=
  match (panelJ s).runR with
  | none => s
  | some r =>
    match (regLines s r)[(panelJ s).line]? with
    | none => regionEnd s r
    | some l => lineDue s l

/-- A line write ends (R457, R463); the next follows without a gap while the driver works. -/
def execLineWriteEnd (s : State) : Answer :=
  .next (
    match s.panel.lineAt, (panelJ s).runR with
    | some t, some r =>
      match (regLines s r)[(panelJ s).line]? with
      | none => s
      | some l =>
        let s := setNow s (t + lineTime s l.1)
        let s := bump (s.updPanel fun p => { p with lineAt := none, idleTs := s.now }) K.PANEL_LINES_CNT
        let s := s.updPJ 1 fun q => { q with line := q.line + 1 }
        if (panelJ s).line = (regLines s r).length then
          let s := regionEnd s r
          if !(panelWorks s) || s.power.dorm.isSome then railsDischarge s else s
        else if panelWorks s then panelNext s else railsDischarge s
    | _, _ => s)

/-- The rail voltages as measured. -/
def putRails (s : State) (mv : List Int) : State :=
  (List.range 4).foldl (fun (s : State) (i : Nat) => sw s (K.PANEL_VCP_MV + i) (BitVec.ofInt 32 (mv.getD i 0))) s

/-- All four rails have lain within ±5 % for 1 ms: the drivers work (R456). -/
def execRailsReady (mv : List Int) (at_ : Nat) (s : State) : Answer :=
  let s := setNow s at_
  .next (
    if s.panel.rails ≠ 1 then s
    else
      let s := putRails (s.updPanel fun p => { p with rails := 2, idleTs := s.now }) mv
      if panelWorks s then panelNext s else railsDischarge s)

/-- The running region is interrupted (R466): cause 1 power-fail, 2 rail fault, 3 takeover. -/
def panelInterrupt (s : State) (cause : Nat) : State :=
  let s := s.updPanel fun p => { p with lineAt := none, recov := false }
  match (panelJ s).runR with
  | none => s
  | some r =>
    ev (s.updPJ 1 fun q => { q with intr := true }) 0x9005 (p4 r ++ p4 (panelJ s).line ++ p4 cause)

/-- A rail has left ±10 % of its setting for 1 ms while on (R456). -/
def execRailFault (rail : Fin 4) (mv : Int) (at_ : Nat) (s : State) : Answer :=
  let s := setNow s at_
  .next (
    if s.panel.rails ≠ 2 then s
    else
      let s := sw s (K.PANEL_VCP_MV + rail) (BitVec.ofInt 32 mv)
      let s := ev (bump (orw s K.PANEL_STATUS 2) K.PANEL_RAILFLT_CNT) 0x9001 (p4 rail ++ leBytes 4 (BitVec.ofInt 32 mv).toNat)
      railsDischarge ((panelInterrupt s 2).updPanel fun p => { p with fault := true }))

/-- No line has been due for RAIL_IDLE ms (R456). -/
def execRailIdleExpiry (s : State) : Answer :=
  .next (
    if s.panel.rails ≠ 2 || s.panel.lineAt.isSome || (panelJ s).runR.isSome || rn s K.PANEL_RAIL_IDLE = 0 then s
    else railsDischarge (setNow s (s.panel.idleTs + 100000 * rn s K.PANEL_RAIL_IDLE)))

/-- A discharge ends; a rail start that waits for it follows (R459). -/
def execRailDischargeEnd (mv : List Int) (at_ : Nat) (s : State) : Answer :=
  let s := setNow s at_
  .next (
    if s.panel.rails ≠ 3 then s
    else putRails (s.updPanel fun p => { p with rails := if p.wantStart && panelWorks s then 1 else 0, wantStart := false }) mv)

/-! ## Requests, starts and blinking (R462 to R464, R467) -/

/-- Half lines of the executive reserve that are left in this tick (R201). -/
def resvLeft (s : State) : Nat := 128 - s.ret.resv
/-- Panel journal work of `n` lines fits, or is alone in the tick where it exceeds the reserve by itself. -/
def panelFits (s : State) (n : Nat) : Bool := decide (3 * n ≤ resvLeft s) || (decide (128 < 3 * n) && decide (s.ret.resv = 0))

/-- A region becomes pending, or keeps its place in the queue. -/
def enqueue (q : PanelJ) (r req : Nat) : PanelJ :=
  { q with queue := if q.queue.contains r then q.queue else q.queue ++ [r], req := q.req.set r req }

/-- The region at the head of the queue starts (R463). -/
def panelStart (s : State) : State :=
  match (panelJ s).queue with
  | [] => s
  | r :: rest =>
    let n := (regLines s r).length + 1
    if !(panelWorks s) || s.panel.lineAt.isSome || (panelJ s).runR.isSome || s.power.dorm.isSome || !(panelFits s n) then s
    else
      let s := s.updPJ n fun q => { q with
        queue := rest, intended := copyRegion s r (cellGet 0 q.pendImg) q.intended
        runR := some r, runReq := q.req.getD r 0, runAlt := q.phases.testBit r, line := 0, intr := false }
      s.updPanel fun p => { p with startTick := s.tick.n, recov := false }

/-- A changed REQr is served (R462); one that does not fit into the reserve waits. -/
def panelRequest (out : List Byte) (s : State) (r : Nat) : State :=
  let v := (out.getD (0xC00 + r) 0).toNat
  let n := (regLines s r).length + 1
  if s.panel.prevReq.getD r 0 = v then s
  else if !(regOn s r) then s.updPanel fun p => { p with prevReq := p.prevReq.set r v }
  else if !(panelFits s n) then s
  else
    let s := if (panelJ s).queue.contains r then bump s K.PANEL_REQ_REPL_CNT else s
    let s := s.updPJ n fun q => enqueue { q with pendImg := copyRegion s r (fun a => out.getD a 0) q.pendImg } r v
    s.updPanel fun p => { p with prevReq := p.prevReq.set r v }

/-- A region is requested once more for a phase change, its pending content unchanged (R464). -/
def phaseRequest (s : State) (r : Nat) (phases : Nat) : State :=
  s.updPJ 1 fun q =>
    let q := { q with phases := phases }
    if regOn s r && !q.queue.contains r then enqueue q r (s.panel.prevReq.getD r 0) else q

/-- The BLINK bits as captured: at most the four lowest blink (R464). -/
def panelBlink (s : State) (mask : Nat) : State :=
  let bits := bitList 16 mask
  let s := if 4 < bits.length then evb (orw s K.PANEL_STATUS 8) 0x9003 (p4 mask) else s
  let on := if panelWorks s then bits.take 4 else []
  let s := s.updPanel fun p => { p with
    blink := on.map fun r => match p.blink.find? fun b => b.1 = r with
      | some b => b
      | none => (r, s.now + 100000 * rn s K.PANEL_BLINK_MS) }
  if !(panelWorks s) then s
  else (bitList 16 (panelJ s).phases).foldl (fun (s : State) (r : Nat) =>
    if on.contains r then s else phaseRequest s r ((panelJ s).phases - 2 ^ r)) s

/-- Capture of the panel's output area in Phase O (R462 to R464); a region starts before the requests are handled. -/
def panelCapture (s : State) : State :=
  let s := panelStart s
  match getArea s 6 0 with
  | none => s
  | some out => panelBlink ((List.range 16).foldl (panelRequest out) s) (leNat (slice out 0xC10 2))

/-- The REQ values of the recovered output image stand as previous ones at a start (R211, R462). -/
def panelSnapshot (s : State) : State :=
  match getArea s 6 0 with
  | none => s
  | some out => s.updPanel fun p => { p with prevReq := (List.range 16).map fun r => (out.getD (0xC00 + r) 0).toNat }

/-- A blinking region changes phase (R464). -/
def execBlinkPhase (r : Fin 16) (s : State) : Answer :=
  .next (
    match s.panel.blink.find? fun b => b.1 = r.val with
    | none => s
    | some b =>
      let s := setNow s b.2
      let s := s.updPanel fun p => { p with blink := updWhere (fun x => decide (x.1 = r.val)) (fun x => (x.1, x.2 + 100000 * rn s K.PANEL_BLINK_MS)) p.blink }
      if panelWorks s then phaseRequest s r ((panelJ s).phases ^^^ 2 ^ r.val) else s)

/-- STATE of Table 16-3. -/
def panelState (s : State) : Nat :=
  if s.panel.fault then 4 else if !(panelWorks s) then 0 else if (panelJ s).intr && (panelJ s).runR.isSome then 3
  else if (panelJ s).runR.isSome then 2 else 1
/-- ACTIVE. -/
def panelActive (s : State) : Nat := (panelJ s).runR.getD 0xFF

/-- The panel's part of an edge: recovery or the region's first line (R463, R467), and the input area (R469). -/
def panelEdge (s : State) : State :=
  let s :=
    if !(panelWorks s) || s.panel.lineAt.isSome then s
    else match (panelJ s).runR with
      | none => s
      | some r =>
        if (panelJ s).intr && !s.panel.recov then
          panelNext ((s.updPJ 1 fun q => { q with line := 0, runAlt := q.phases.testBit r }).updPanel fun p => { p with recov := true })
        else if s.panel.recov || s.panel.startTick ≤ s.ret.durTick then panelNext s else s
  putArea s 6 0 (leBytes 1 (panelState s) ++ leBytes 1 (panelActive s) ++ leBytes 2 0 ++ leBytes 2 (maskOf (panelJ s).queue) ++
    leBytes 2 (maskOf (s.panel.blink.map Prod.fst)) ++ (panelJ s).done.map (BitVec.ofNat 8) ++ padTo 8 [])

/-! ## ENABLE (R468) -/

/-- A word lies in a range and is a multiple of `m`. -/
def inRange (s : State) (k lo hi m : Nat) : Bool := decide (lo ≤ rn s k) && decide (rn s k ≤ hi) && decide (rn s k % m = 0)

/-- The words of a plane lie in their ranges. -/
def planeRanges (s : State) (p : Nat) : Bool :=
  inRange s (K.PANELk_TRST p) 100 200000 10 && inRange s (K.PANELk_TSEL p) 100 50000 10 && inRange s (K.PANELk_TEVO p) 0 200000 10 &&
    inRange s (K.PANELk_BLINKGREY p) 0 15 1 && (List.range 16).all fun g => inRange s (K.PANELk_GREY p g) 0 256 1

/-- The first condition that refuses ENABLE; 0 for none. -/
def panelCfgFail (s : State) : Nat :=
  let planes := (rw s K.PANEL_PLANES).toNat
  if !(inRange s K.PANEL_PLANES 0 7 1 && inRange s K.PANEL_COMS 1 16 1 && inRange s K.PANEL_SEGS 1 128 1 && inRange s K.PANEL_VC_MAX 50 400 1 &&
      inRange s K.PANEL_VS_MAX 20 120 1 && inRange s K.PANEL_BLINK_MS 250 10000 1 && inRange s K.PANEL_RAIL_IDLE 0 60000 1 &&
      (List.range 3).all (planeRanges s)) then 1
  else if !((bitList 3 planes).all fun p => decide (rn s (K.PANELk_VC p) ≤ rn s K.PANEL_VC_MAX) &&
      decide (rn s (K.PANELk_VSEL p) ≤ rn s K.PANEL_VC_MAX) && decide (rn s (K.PANELk_VS p) ≤ rn s K.PANEL_VS_MAX)) then 2
  else if !((List.range 16).all fun r =>
      let w := regWord s r
      !(regOn s r) || (decide ((field w 2 0).toNat &&& planes = (field w 2 0).toNat) && decide ((field w 15 12).toNat < rn s K.PANEL_COMS) &&
        decide ((field w 30 24).toNat < rn s K.PANEL_SEGS) && decide (field w 11 8 ≤ field w 15 12) && decide (field w 22 16 ≤ field w 30 24))) then 3
  else 0

/-- A write of PANEL.ENABLE; false where it is refused. -/
def panelEnable (s : State) (v : Bool) : State × Bool :=
  if v = rb s K.PANEL_ENABLE 0 then (s, true)
  else if v then
    if panelCfgFail s = 0 then ((sn s K.PANEL_ENABLE 1).updPanel fun p => { p with fault := false, idleTs := s.now }, true)
    else (ev (orw (cfgRej s 0xB00) K.PANEL_STATUS 1) 0x9004 (p4 (panelCfgFail s)), false)
  else
    let s := sn s K.PANEL_ENABLE 0
    (if s.panel.lineAt.isSome then s else railsDischarge s, true)

/-- PANEL.ENABLE is written. -/
def execPanelEnableWrite (v : Bool) (s : State) : Answer := .next (written K.PANEL_ENABLE (panelEnable s v))

/-! ## Starts, loss of the field, power loss -/

/-- The driver at a start: nothing is driven, and a region that the journal marks as running is interrupted (R466). -/
def Panel.reset : Panel :=
  { rails := 0, wantStart := false, fault := false, lineAt := none, startTick := 0, recov := false, idleTs := 0
    prevReq := List.replicate 16 0, blink := [] }

/-- A region that the journal marks as running at a start or a takeover is interrupted (R466). -/
def panelAtStart (s : State) : State :=
  let s := { s with panel := { Panel.reset with rails := s.panel.rails } }
  { s with ret := { s.ret with j := { s.ret.j with panel := { s.ret.j.panel with intr := s.ret.j.panel.runR.isSome } } } }

/-- The same at a takeover, with its event (R466, R470). -/
def panelTakeover (s : State) : State :=
  match (panelJ s).runR with
  | none => panelAtStart s
  | some r => ev (panelAtStart s) 0x9005 (p4 r ++ p4 (panelJ s).line ++ p4 3)

/-- The driver gives the field up: RESET, CEDAR, or a role that does not drive (Table 16-2). -/
def panelQuit (s : State) : State :=
  railsDischarge (s.updPanel fun p => { p with recov := false, blink := [] })

end Sys2Proof.Machine
end

