-- ==== Sys2Proof/Machine/Rtc.lean ====
section
/-! DEFINITION. Clock and calendar (R471 to R488). -/

namespace Sys2Proof.Machine

/-- Update the clock domain. -/
def State.updRtc (s : State) (f : Rtc → Rtc) : State := { s with rtc := f s.rtc }

/-! ## Counting (R471 to R473) -/

/-- The Gregorian rule within 2000 to 2399 (R472). -/
def leapYear (y : Nat) : Bool := decide (y % 4 = 0) && decide (y ≠ 2100) && decide (y ≠ 2200) && decide (y ≠ 2300)
/-- Days of a month. -/
def monthDays (y m : Nat) : Nat := if m = 2 then (if leapYear y then 29 else 28) else if m = 4 ∨ m = 6 ∨ m = 9 ∨ m = 11 then 30 else 31
/-- Days from 2000-01-01 to the first day of a year. -/
def yearStart (y : Nat) : Nat := let n := y - 2000; 365 * n + (n + 3) / 4 - (n + 99) / 100 + (if 0 < n then 1 else 0)
/-- Days from 2000-01-01 to a date. -/
def dayNumber (y m d : Nat) : Nat := yearStart y + ((List.range (m - 1)).map fun i => monthDays y (i + 1)).sum + (d - 1)
/-- Weekday of a day number; 2000-01-01 is a Saturday. -/
def weekday (n : Nat) : Nat := (n + 5) % 7

/-- Seconds since 2000-01-01. -/
def Civil.seconds (c : Civil) : Nat := dayNumber c.year c.month c.day * 86400 + c.hour * 3600 + c.min_ * 60 + c.sec
/-- Order of times, subsecond included. -/
def Civil.before (a b : Civil) : Bool := decide (a.seconds < b.seconds) || (decide (a.seconds = b.seconds) && decide (a.sub < b.sub))
/-- The calendar time of R604. -/
def Civil.pack (c : Civil) : Nat :=
  c.sub + 2 ^ 10 * c.sec + 2 ^ 16 * c.min_ + 2 ^ 22 * c.hour + 2 ^ 27 * c.day + 2 ^ 32 * c.month + 2 ^ 36 * (c.year - 2000)

/-- 2000-01-01 00:00:00.000. -/
def Civil.first : Civil := { sub := 0, sec := 0, min_ := 0, hour := 0, day := 1, month := 1, year := 2000 }

/-- The day after; true where the calendar wraps (R473). -/
def Civil.nextDay (c : Civil) : Civil × Bool :=
  if c.day < monthDays c.year c.month then ({ c with day := c.day + 1 }, false)
  else if c.month < 12 then ({ c with day := 1, month := c.month + 1 }, false)
  else if c.year < 2399 then ({ c with day := 1, month := 1, year := c.year + 1 }, false)
  else ({ c with day := 1, month := 1, year := 2000 }, true)

/-- The next second, at subsecond 0. -/
def Civil.nextSecond (c : Civil) : Civil × Bool :=
  let c := { c with sub := 0 }
  if c.sec < 59 then ({ c with sec := c.sec + 1 }, false)
  else if c.min_ < 59 then ({ c with sec := 0, min_ := c.min_ + 1 }, false)
  else if c.hour < 23 then ({ c with sec := 0, min_ := 0, hour := c.hour + 1 }, false)
  else Civil.nextDay { c with sec := 0, min_ := 0, hour := 0 }

/-! ## Alarms (R478 to R481) -/

/-- ALMk_T and ALMk_D. -/
def almT (s : State) (k : Fin 2) : Word := rw s (K.RTC_ALM0_T + 2 * k)
/-- ALMk_D. -/
def almD (s : State) (k : Fin 2) : Word := rw s (K.RTC_ALM0_D + 2 * k)

/-- The time of day matches. -/
def todMatches (t : Word) (hour min_ sec : Nat) : Bool :=
  (t.getLsbD 26 || decide ((field t 20 16).toNat = hour)) && (t.getLsbD 25 || decide ((field t 13 8).toNat = min_)) &&
    (t.getLsbD 24 || decide ((field t 5 0).toNat = sec))

/-- The date matches. -/
def dateMatches (d : Word) (c : Civil) : Bool :=
  (d.getLsbD 31 || decide ((field d 8 0).toNat + 2000 = c.year)) && (d.getLsbD 30 || decide ((field d 23 20).toNat = c.month)) &&
    (d.getLsbD 29 || decide ((field d 19 15).toNat = c.day)) &&
    (d.getLsbD 28 || decide ((field d 26 24).toNat = weekday (dayNumber c.year c.month c.day)))

/-- An alarm that is enabled matches in the second of a time. -/
def almMatches (s : State) (k : Fin 2) (c : Civil) : Bool :=
  rb s K.RTC_ALM_EN k && todMatches (almT s k) c.hour c.min_ c.sec && dateMatches (almD s k) c

/-- Matching seconds of a day from `lo` on and before `hi`. -/
def todCount (t : Word) (lo hi : Nat) : Nat :=
  ((List.range (hi - lo)).filter fun i => let x := lo + i; todMatches t (x / 3600) (x / 60 % 60) (x % 60)).length

/-- Match instants on `n` whole days from a date on, of `full` matches each. -/
def dayCount (d : Word) (full : Nat) : Nat → Civil → Nat
  | 0, _ => 0
  | n + 1, c => (if dateMatches d c then full else 0) + dayCount d full n c.nextDay.1

/-- Match instants after `a`'s second and before `b`'s second (R480). A match in the second that the set lands in is a match at B. -/
def skipped (t d : Word) (a b : Civil) : Nat :=
  let da := dayNumber a.year a.month a.day
  let db := dayNumber b.year b.month b.day
  let sa := a.seconds % 86400
  let sb := b.seconds % 86400
  if da = db then (if dateMatches d a then todCount t (sa + 1) sb else 0)
  else
    (if dateMatches d a then todCount t (sa + 1) 86400 else 0) + dayCount d (todCount t 0 86400) (db - da - 1) a.nextDay.1 +
      (if dateMatches d b then todCount t 0 sb else 0)

/-- Alarm `k` fires with a cause of Table 17-5: 1 MATCH, 2 SKIP (R479). While L+ is absent the match is latched. -/
def almFire (s : State) (k : Fin 2) (cause cyc : Nat) : State :=
  if !s.power.present then
    if s.rtc.latched[k].isSome then s else s.updRtc fun r => { r with latched := r.latched.set k (some r.t) k.isLt }
  else
    let s := ev (putBit s K.RTC_STATUS (2 + k.val) true) 0xA001 (p4 k ++ p8 s.rtc.t.pack ++ p4 cause)
    trigger (wakeMark s (8 + k.val) true) (0x0400 + k.val) cyc

/-- The alarms are evaluated in the second that the calendar is in (R478). -/
def almEvaluate (s : State) (cyc : Nat) : State :=
  [(0 : Fin 2), 1].foldl (fun (s : State) (k : Fin 2) => if almMatches s k s.rtc.t then almFire s k 1 cyc else s) s

/-- The calendar enters a new second (R471, R473, R478). -/
def execCalendarSecond (at_ : Nat) (cyc : Nat) (s : State) : Answer :=
  let s := setNow s at_
  let n := s.rtc.t.nextSecond
  let s := s.updRtc fun r => { r with t := n.1, secTs := s.now, wday := if n.1.seconds % 86400 = 0 then (r.wday + 1) % 7 else r.wday }
  let s := if n.2 then (if s.power.present then ev (orw s K.RTC_STATUS 2) 0xA005 [] else orw s K.RTC_STATUS 2) else s
  .next (almEvaluate s cyc)

/-! ## Setting (R476, R477) -/

/-- The time of the SET words. -/
def setTime (s : State) : Civil :=
  let w := fun (k : Nat) => (field (rw s k) 15 0).toNat
  { sub := w K.RTC_SET_SUBSEC, sec := w K.RTC_SET_SECOND, min_ := w K.RTC_SET_MINUTE, hour := w K.RTC_SET_HOUR, day := w K.RTC_SET_DAY,
    month := w K.RTC_SET_MONTH, year := w K.RTC_SET_YEAR }

/-- The first failing field in the order of R476, counted from 1; 0 for none. -/
def setFail (c : Civil) : Nat :=
  if 1023 < c.sub then 1 else if 59 < c.sec then 2 else if 59 < c.min_ then 3 else if 23 < c.hour then 4
  else if c.month = 0 ∨ 12 < c.month then 5 else if c.year < 2000 ∨ 2399 < c.year then 6
  else if c.day = 0 ∨ monthDays c.year c.month < c.day then 7 else 0

/-- Matches of an enabled alarm that a forward set jumps over (R480). -/
def almJumped (s : State) (a b : Civil) (k : Fin 2) : Nat :=
  if rb s K.RTC_ALM_EN k then skipped (almT s k) (almD s k) a b else 0

/-- A forward set from `a` to `b`: SKIPk and 16#A004 of each alarm that it jumps over, then the fires with the cause SKIP (R480). -/
def almSkips (s : State) (a b : Civil) (cyc : Nat) : State :=
  let s := [(0 : Fin 2), 1].foldl (fun (s : State) (k : Fin 2) =>
    let n := almJumped s a b k
    if n = 0 then s else ev (putBit s K.RTC_STATUS (4 + k.val) true) 0xA004 (p4 k ++ p4 (min n 65535))) s
  [(0 : Fin 2), 1].foldl (fun (s : State) (k : Fin 2) =>
    if almJumped s a b k ≠ 0 ∧ (almT s k).getLsbD 30 then almFire s k 2 cyc else s) s

/-- A write of 1 to SET_CMD at subsecond `sub` of the calendar: the set is applied whole or not at all (R476, R477). -/
def rtcSet (s : State) (sub cyc : Nat) : State × Bool :=
  let b := setTime s
  if setFail b ≠ 0 then (ev (bump (orw s K.RTC_STATUS 1) K.RTC_WREJ_CNT) 0xA003 (p4 (setFail b)), false)
  else
    let a := { s.rtc.t with sub := min sub 1023 }
    let s := s.updRtc fun r => { r with t := b, wday := weekday (dayNumber b.year b.month b.day),
                                        secTs := (2 ^ 64 + s.now - b.sub * 100000000 / 1024) % 2 ^ 64 }
    let s := ev (bump s K.RTC_SET_CNT) 0xA006 (p8 a.pack ++ p8 b.pack)
    let s := if a.before b then almSkips s a b cyc else s
    (if a.before b || b.before a then almEvaluate s cyc else s, true)

/-- SET_CMD is written (R476). -/
def execSetCmd (v : Word) (sub : Nat) (at_ : Nat) (cyc : Nat) (s : State) : Answer :=
  let s := setNow s at_
  .next (if v = 1 then (rtcSet s sub cyc).1 else s)

/-! ## Reading (R475) -/

/-- The ten time fields at subsecond `sub`. -/
def timeFields (s : State) (sub : Nat) : List Word :=
  let c := s.rtc.t
  [lo32 s.rtc.secTs, hi32 s.rtc.secTs] ++
    [min sub 1023, c.sec, c.min_, c.hour, s.rtc.wday, c.day, c.month, c.year].map (BitVec.ofNat 32)

/-- A session's read of time field `w`: it freezes the shadow or uses it, and YEAR releases it. -/
def rtcTimeRead (s : State) (slot : Fin 8) (w : Nat) (sub : Nat) : State × Word :=
  let held := match s.rtc.shadow[slot] with
    | some (t, l) => if s.now < t + 100000 then some (t, l) else none
    | none => none
  let q := held.getD (s.now, timeFields s sub)
  (s.updRtc fun r => { r with shadow := r.shadow.set slot (if w = 9 then none else some q) slot.isLt }, q.2.getD w 0)

/-- A session reads a time field (R475). -/
def execRtcTimeRead (slot : Fin 8) (w : Fin 10) (sub : Nat) (at_ : Nat) (s : State) : Answer :=
  let s := setNow s at_
  let q := rtcTimeRead s slot w sub
  .next (emit q.1 (.value slot (K.RTC_SEC_TS_LO + w) q.2))

/-- 1 ms after the freezing read the shadow is released (R475). -/
def execShadowRelease (slot : Fin 8) (s : State) : Answer :=
  .next (match s.rtc.shadow[slot] with
    | none => s
    | some (t, _) => (setNow s (t + 100000)).updRtc fun r => { r with shadow := r.shadow.set slot none slot.isLt })

/-! ## Supply (R482 to R484) -/

/-- The internal rail falls below 2.70 V: the clock is fed from backup (R482). -/
def execClockBackupSwitch (mv : Nat) (at_ : Nat) (s : State) : Answer :=
  let s := setNow s at_
  .next (sn (sn (s.updRtc fun r => { r with backup := true }) K.RTC_CHARGE 0) K.RTC_SCAP_MV mv)

/-- The internal rail rises above 2.78 V: the clock is fed from it again and the trickle charge runs (R482). -/
def execClockRailReturn (mv : Nat) (at_ : Nat) (s : State) : Answer :=
  let s := setNow s at_
  .next (if s.rtc.backup then sn (sn (s.updRtc fun r => { r with backup := false }) K.RTC_CHARGE 1) K.RTC_SCAP_MV mv else s)

/-- The supercapacitor is charged (Table 17-1). -/
def execTrickleChargeEnd (mv : Nat) (at_ : Nat) (s : State) : Answer :=
  let s := setNow s at_
  .next (if rb s K.RTC_CHARGE 0 then sn (sn s K.RTC_CHARGE 0) K.RTC_SCAP_MV mv else s)

/-- The clock domain after its reset. -/
def Rtc.reset : Rtc :=
  { t := Civil.first, wday := 5, secTs := 0, backup := false, latched := #v[none, none], shadow := Vector.replicate 8 none }

/-- The backup source falls below 1.60 V: the clock domain resets (R484). In a clock that its rail feeds nothing happens. -/
def execClockDomainReset (s : State) : Answer :=
  .next (
    if s.rtc.backup then
      { s with rtc := { Rtc.reset with backup := true }, par := s.par.filter fun q => decide (q.1 / 65536 ≠ 0xC00) }
    else s)

/-- Latched matches are reported at the start (R479). -/
def rtcOffReport (s : State) : State :=
  [(0 : Fin 2), 1].foldl (fun (s : State) (k : Fin 2) =>
    match s.rtc.latched[k] with
    | none => s
    | some c => ev (orw (s.updRtc fun r => { r with latched := r.latched.set k none k.isLt }) K.RTC_STATUS 0x40) 0xA002 (p4 k ++ p8 c.pack)) s

/-- Fields of ALMk_T and ALMk_D lie in the ranges of Table 17-3. -/
def almWordOk (isDate : Bool) (v : Word) : Bool :=
  if isDate then
    decide ((field v 26 24).toNat ≤ 6) && decide ((field v 23 20).toNat ≤ 12) && decide ((field v 8 0).toNat ≤ 399) &&
      (v.getLsbD 30 || decide (field v 23 20 ≠ 0)) && (v.getLsbD 29 || decide (field v 19 15 ≠ 0))
  else decide ((field v 20 16).toNat ≤ 23) && decide ((field v 13 8).toNat ≤ 59) && decide ((field v 5 0).toNat ≤ 59)

end Sys2Proof.Machine
end

