-- ==== Sys2Proof/Machine/Evr.lean ====
section
/-! DEFINITION. Event recorder (R512 to R521, R604). -/

namespace Sys2Proof.Machine

/-- Update the recorder. -/
def State.updEvr (s : State) (f : Evr → Evr) : State := { s with evr := f s.evr }

/-- Bytes of the ring. -/
def ringSize : Nat := 262144
/-- Bytes that a record of a payload length occupies (R512). -/
def recSize (len : Nat) : Nat := (24 + len + 7) / 8 * 8
/-- The key of a burst: the first min(4, LEN) payload bytes (R515). -/
def burstKey (pay : List Byte) : List Byte := pay.take 4

/-- SEQ after a number (R512). -/
def nextSeq (q : Nat) : Nat := if q = 0xFFFFFFFF then 1 else q + 1

/-- The records of the ring that satisfy a test are overwritten (R514); a burst closes with its record. -/
def evrOverwrite (s : State) (p : RecIdx → Bool) : State :=
  let gone := s.evr.recs.filter p
  if gone = [] then s
  else
    let s := s.updEvr fun e => { e with
      recs := e.recs.filter fun r => !(p r)
      bursts := e.bursts.filter fun b => !(gone.any fun r => r.ofs = b.ofs) }
    orw (bump s K.EVR_WRAP_CNT gone.length) K.EVR_STATUS 2

/-- The place of a record of `z` bytes: a record never wraps past the end (R514). -/
def evrPlace (s : State) (z : Nat) : State :=
  let n := s.evr.next
  if n + z ≤ ringSize then s
  else
    let s := if n < ringSize then s.updEvr fun e => { e with ring := cellWrite 0 e.ring n (leBytes 4 0) } else s
    (evrOverwrite s fun r => decide (n < r.ofs + recSize r.len)).updEvr fun e => { e with next := 0 }

/-- The bytes of a record (Table 19-1). CHK covers the header before REPEAT and the payload. -/
def recBytes (seq code flags ts : Nat) (pay : List Byte) : List Byte :=
  let h := leBytes 4 seq ++ leBytes 2 code ++ leBytes 1 pay.length ++ leBytes 1 flags ++ leBytes 8 ts
  padTo (recSize pay.length) (h ++ leBytes 4 0 ++ leBytes 4 (crc32 (h ++ pay)) ++ pay)

/-- An occurrence is written as a record (R512 to R515). -/
def writeRecord (s : State) (o : Occ) : State :=
  let z := recSize o.pay.length
  let s := evrPlace s z
  let p := s.evr.next
  let s := evrOverwrite s fun r => decide (r.ofs < p + z) && decide (p < r.ofs + recSize r.len)
  let q := nextSeq s.evr.seq
  let b : Burst := { code := o.code, key := burstKey o.pay, ofs := p, last := o.ts }
  s.updEvr fun e => { e with
    ring := cellWrite 0 e.ring p (recBytes q o.code ((if e.gap then 2 else 0) + (if o.prog then 1 else 0)) o.ts o.pay)
    recs := e.recs ++ [{ ofs := p, seq := q, code := o.code, len := o.pay.length }]
    next := p + z, seq := q, gap := false
    bursts := if o.burst then (if e.bursts.length < 32 then e.bursts else e.bursts.drop 1) ++ [b] else e.bursts }

/-- A matching occurrence adds 1 to REPEAT (R515). -/
def addRepeat (s : State) (b : Burst) (ts : Nat) : State :=
  let a := b.ofs + 0x10
  let v := leNat (cellBytes 0 s.evr.ring a 4)
  s.updEvr fun e => { e with
    ring := cellWrite 0 e.ring a (leBytes 4 (min (v + 1) 0xFFFFFFFF))
    bursts := updWhere (fun x => decide (x.ofs = b.ofs)) (fun x => { x with last := ts }) e.bursts }

/-- The open burst that an occurrence matches; one whose time has passed is closed (R515). -/
def burstOf (s : State) (o : Occ) : Option Burst :=
  s.evr.bursts.find? fun b => decide (b.code = o.code) && decide (b.key = burstKey o.pay) &&
    decide (o.ts < b.last + 100000 * rn s K.EVR_BURST_MS)

/-- An occurrence becomes a record, or adds to an open burst (R515). -/
def writeOcc (s : State) (o : Occ) : State :=
  match (if o.burst then burstOf s o else none) with
  | some b => addRepeat s b o.ts
  | none =>
    writeRecord (s.updEvr fun e => { e with
      bursts := e.bursts.filter fun b => !(o.burst && decide (b.code = o.code) && decide (b.key = burstKey o.pay)) }) o

/-- The recorder writes the next queued occurrence (R513, R515); while the boot ROM reads the ring it waits (R516). -/
def execEventRecordWrite (s : State) : Answer :=
  .next (
    if s.evr.scanning || decide (s.mode = .off) then s
    else match s.evr.queue with
      | [] => s
      | o :: rest => writeOcc (s.updEvr fun e => { e with queue := rest }) o)

/-- The queue is written whole, at the end of a power-fail sequence (R241). -/
def evrDrain (s : State) : State := s.evr.queue.foldl writeOcc (s.updEvr fun e => { e with queue := [] })

/-- Instant at which a burst closes. -/
def burstEnd (s : State) (b : Burst) : Nat := b.last + 100000 * rn s K.EVR_BURST_MS

/-- The open burst whose time ends first closes (R515). -/
def execBurstClose (s : State) : Answer :=
  .next (
    match s.evr.bursts with
    | [] => s
    | b :: r =>
      let t := r.foldl (fun t x => min t (burstEnd s x)) (burstEnd s b)
      let b := (s.evr.bursts.find? fun x => decide (burstEnd s x = t)).getD b
      (setNow s t).updEvr fun e => { e with bursts := e.bursts.filter fun x => decide (x.ofs ≠ b.ofs) })

/-- A record's CHK is valid in the ring's bytes. -/
def recValid (s : State) (r : RecIdx) : Bool :=
  let b := cellBytes 0 s.evr.ring r.ofs (24 + r.len)
  decide (leNat (b.take 4) = r.seq) && decide (leNat (slice b 4 2) = r.code) && decide (leNat (slice b 6 1) = r.len) &&
    decide (leNat (slice b 20 4) = crc32 (b.take 16 ++ b.drop 24))

/-- At a start of kind 1 the executive checks the newest record that the read of the ring found (R244), once both are there. -/
def pfCheck (s : State) : State :=
  if s.start.kind = 1 ∧ s.start.source = 2 ∧ !s.evr.scanning ∧ s.evr.newest ≠ 0 then
    let bad := decide (s.evr.newest ≠ 2)
    let s := s.updEvr fun e => { e with newest := 0 }
    if bad then ev (orw s K.POWER_STATUS 8) 0x0003 [] else s
  else s

/-- The boot ROM reads the whole ring and finds the newest record; the next follows it (R516). -/
def execRingScan (s : State) : Answer :=
  .next (
    if !s.evr.scanning then s
    else
      let s := mramRead s fun o => decide (0xC00000 ≤ o) && decide (o < 0xC40000)
      let ok := s.evr.recs.filter (recValid s)
      let last := ok.getLast?
      pfCheck <| s.updEvr fun e => { e with
        scanning := false, recs := ok
        seq := match last with | some r => r.seq | none => e.seq
        next := match last with | some r => r.ofs + recSize r.len | none => e.next
        newest := match last with | some r => r.code | none => 0 })

/-- The recorder at a release from RESET: the ring is to be read, and no burst is carried over (R516). -/
def evrAtRelease (s : State) : State := s.updEvr fun e => { e with scanning := true, bursts := [], cur := Vector.replicate 8 0 }

/-- A clear is applied (R520). -/
def evrClear (s : State) (slot : Nat) : State :=
  let n := s.evr.recs.length
  let s := s.updEvr fun e => { e with
    ring := e.recs.foldl (fun m r => cellWrite 0 m r.ofs (leBytes 4 0)) e.ring
    recs := [], bursts := [] }
  ev (orw s K.EVR_STATUS 1) 0x0009 (p4 slot ++ p4 n)

/-- A privileged write of 1 to EVR.CLEAR is applied in Phase O (R520). -/
def execEvrClear (slot : Fin 8) (s : State) : Answer := .next (evrClear s slot)

/-- The 256 bytes that WIN0 to WIN63 show of a session's cursor (R517). -/
def evrCopy (s : State) (slot : Fin 8) : List Byte :=
  (List.range 256).map fun i => cellGet 0 s.evr.ring ((s.evr.cur[slot] + i) % ringSize)
/-- Word WINi of a copy. -/
def winWord (copy : List Byte) (i : Nat) : Word := BitVec.ofNat 32 (leNat (slice copy (4 * i) 4))

/-- A request reads window word `i` (R517). -/
def execEvrWindowRead (slot : Fin 8) (i : Fin 64) (s : State) : Answer :=
  .next (emit s (.value slot (K.EVR_WIN i) (winWord (evrCopy s slot) i)))

end Sys2Proof.Machine
end

