-- ==== Sys2Proof/Machine/EvxArith.lean ====
section
/-! DEFINITION. Word arithmetic and logic, shifts and fields, multiply and divide (R125 to R127, R132, R133). -/

namespace Sys2Proof.Machine

/-- The shifts of R127 by 0 to 31: SLL, SRL, SRA, ROR for kind 0 to 3. -/
def shiftOp (kind : Nat) (v : Word) (n : Nat) : Word :=
  if kind = 0 then v <<< n else if kind = 1 then v >>> n else if kind = 2 then v.sshiftRight n else v.rotateRight n

/-- The field of EXT: `w` bits from `pos`, extended by its sign or by zeros (R127). -/
def extOp (v : Word) (sx : Bool) (w pos : Nat) : Word :=
  let f := v.toNat / 2 ^ pos % 2 ^ w
  if sx && f.testBit (w - 1) then BitVec.ofInt 32 ((f : Int) - 2 ^ w) else BitVec.ofNat 32 f

/-- The insertion of INS (R127). -/
def insOp (old v : Word) (w pos : Nat) : Word := setField old (pos + w - 1) pos v.toNat

/-- Quotient and remainder of a divide at distance 18 (R132, R133). -/
def divRes (rd : RegNo) (q : Word × Word × Word) : EOut :=
  if rd.val % 2 = 1 then .fault 0x2002 0 0
  else results [(18, .g rd q.1), (18, .g (nextReg rd) q.2.1), (18, .csrOr q.2.2)]

/-- ADD (R125). -/
def execAdd (c : CoreId) (rd ra rb : RegNo) (s : State) : Answer :=
  .next (issue s c (.add c rd ra rb) fun x => results [(1, .g rd (x.rg ra + x.rg rb))])

/-- SUB (R125). -/
def execSub (c : CoreId) (rd ra rb : RegNo) (s : State) : Answer :=
  .next (issue s c (.sub c rd ra rb) fun x => results [(1, .g rd (x.rg ra - x.rg rb))])

/-- ADDV (R125). -/
def execAddv (c : CoreId) (rd ra rb : RegNo) (s : State) : Answer :=
  .next (issue s c (.addv c rd ra rb) fun x => ovRes rd ((x.rg ra).toInt + (x.rg rb).toInt))

/-- SUBV (R125). -/
def execSubv (c : CoreId) (rd ra rb : RegNo) (s : State) : Answer :=
  .next (issue s c (.subv c rd ra rb) fun x => ovRes rd ((x.rg ra).toInt - (x.rg rb).toInt))

/-- ADDS (R125). -/
def execAdds (c : CoreId) (rd ra rb : RegNo) (s : State) : Answer :=
  .next (issue s c (.adds c rd ra rb) fun x => satRes rd 1 (sat32 ((x.rg ra).toInt + (x.rg rb).toInt)))

/-- SUBS (R125). -/
def execSubs (c : CoreId) (rd ra rb : RegNo) (s : State) : Answer :=
  .next (issue s c (.subs c rd ra rb) fun x => satRes rd 1 (sat32 ((x.rg ra).toInt - (x.rg rb).toInt)))

/-- ADDSU (R125). -/
def execAddsu (c : CoreId) (rd ra rb : RegNo) (s : State) : Answer :=
  .next (issue s c (.addsu c rd ra rb) fun x => satRes rd 1 (satu32 ((x.rg ra).toNat + (x.rg rb).toNat)))

/-- SUBSU (R125). -/
def execSubsu (c : CoreId) (rd ra rb : RegNo) (s : State) : Answer :=
  .next (issue s c (.subsu c rd ra rb) fun x => satRes rd 1 (satu32 (((x.rg ra).toNat : Int) - ((x.rg rb).toNat : Int))))

/-- AND (R125). -/
def execAnd (c : CoreId) (rd ra rb : RegNo) (s : State) : Answer :=
  .next (issue s c (.and c rd ra rb) fun x => results [(1, .g rd (x.rg ra &&& x.rg rb))])

/-- OR (R125). -/
def execOr (c : CoreId) (rd ra rb : RegNo) (s : State) : Answer :=
  .next (issue s c (.or c rd ra rb) fun x => results [(1, .g rd (x.rg ra ||| x.rg rb))])

/-- XOR (R125). -/
def execXor (c : CoreId) (rd ra rb : RegNo) (s : State) : Answer :=
  .next (issue s c (.xor c rd ra rb) fun x => results [(1, .g rd (x.rg ra ^^^ x.rg rb))])

/-- ANDN (R125). -/
def execAndn (c : CoreId) (rd ra rb : RegNo) (s : State) : Answer :=
  .next (issue s c (.andn c rd ra rb) fun x => results [(1, .g rd (x.rg ra &&& ~~~(x.rg rb)))])

/-- ORN (R125). -/
def execOrn (c : CoreId) (rd ra rb : RegNo) (s : State) : Answer :=
  .next (issue s c (.orn c rd ra rb) fun x => results [(1, .g rd (x.rg ra ||| ~~~(x.rg rb)))])

/-- XNOR (R125). -/
def execXnor (c : CoreId) (rd ra rb : RegNo) (s : State) : Answer :=
  .next (issue s c (.xnor c rd ra rb) fun x => results [(1, .g rd (~~~(x.rg ra ^^^ x.rg rb)))])

/-- NOR (R125). -/
def execNor (c : CoreId) (rd ra rb : RegNo) (s : State) : Answer :=
  .next (issue s c (.nor c rd ra rb) fun x => results [(1, .g rd (~~~(x.rg ra ||| x.rg rb)))])

/-- MIN (R125). -/
def execMin (c : CoreId) (rd ra rb : RegNo) (s : State) : Answer :=
  .next (issue s c (.min c rd ra rb) fun x => results [(1, .g rd (if (x.rg ra).slt (x.rg rb) then x.rg ra else x.rg rb))])

/-- MAX (R125). -/
def execMax (c : CoreId) (rd ra rb : RegNo) (s : State) : Answer :=
  .next (issue s c (.max c rd ra rb) fun x => results [(1, .g rd (if (x.rg ra).slt (x.rg rb) then x.rg rb else x.rg ra))])

/-- MINU (R125). -/
def execMinu (c : CoreId) (rd ra rb : RegNo) (s : State) : Answer :=
  .next (issue s c (.minu c rd ra rb) fun x => results [(1, .g rd (if (x.rg ra).ult (x.rg rb) then x.rg ra else x.rg rb))])

/-- MAXU (R125). -/
def execMaxu (c : CoreId) (rd ra rb : RegNo) (s : State) : Answer :=
  .next (issue s c (.maxu c rd ra rb) fun x => results [(1, .g rd (if (x.rg ra).ult (x.rg rb) then x.rg rb else x.rg ra))])

/-- SLT (R125). -/
def execSlt (c : CoreId) (rd ra rb : RegNo) (s : State) : Answer :=
  .next (issue s c (.slt c rd ra rb) fun x => results [(1, .g rd (ofBool 32 ((x.rg ra).slt (x.rg rb))))])

/-- SLTU (R125). -/
def execSltu (c : CoreId) (rd ra rb : RegNo) (s : State) : Answer :=
  .next (issue s c (.sltu c rd ra rb) fun x => results [(1, .g rd (ofBool 32 ((x.rg ra).ult (x.rg rb))))])

/-- SLL (R127). -/
def execSll (c : CoreId) (rd ra rb : RegNo) (s : State) : Answer :=
  .next (issue s c (.sll c rd ra rb) fun x => results [(1, .g rd (shiftOp 0 (x.rg ra) ((x.rg rb).toNat % 32)))])

/-- SRL (R127). -/
def execSrl (c : CoreId) (rd ra rb : RegNo) (s : State) : Answer :=
  .next (issue s c (.srl c rd ra rb) fun x => results [(1, .g rd (shiftOp 1 (x.rg ra) ((x.rg rb).toNat % 32)))])

/-- SRA (R127). -/
def execSra (c : CoreId) (rd ra rb : RegNo) (s : State) : Answer :=
  .next (issue s c (.sra c rd ra rb) fun x => results [(1, .g rd (shiftOp 2 (x.rg ra) ((x.rg rb).toNat % 32)))])

/-- ROR (R127). -/
def execRor (c : CoreId) (rd ra rb : RegNo) (s : State) : Answer :=
  .next (issue s c (.ror c rd ra rb) fun x => results [(1, .g rd (shiftOp 3 (x.rg ra) ((x.rg rb).toNat % 32)))])

/-- MUL (R132). -/
def execMul (c : CoreId) (rd ra rb : RegNo) (s : State) : Answer :=
  .next (issue s c (.mul c rd ra rb) fun x => results [(3, .g rd (x.rg ra * x.rg rb))])

/-- MULHS (R132). -/
def execMulhs (c : CoreId) (rd ra rb : RegNo) (s : State) : Answer :=
  .next (issue s c (.mulhs c rd ra rb) fun x => results [(3, .g rd (BitVec.ofInt 32 ((x.rg ra).toInt * (x.rg rb).toInt / 2 ^ 32)))])

/-- MULHU (R132). -/
def execMulhu (c : CoreId) (rd ra rb : RegNo) (s : State) : Answer :=
  .next (issue s c (.mulhu c rd ra rb) fun x => results [(3, .g rd (BitVec.ofNat 32 ((x.rg ra).toNat * (x.rg rb).toNat / 2 ^ 32)))])

/-- MULQ (R132). -/
def execMulq (c : CoreId) (rd ra rb : RegNo) (s : State) : Answer :=
  .next (issue s c (.mulq c rd ra rb) fun x => satRes rd 3 (sat32 (roundHi (2 * (x.rg ra).toInt * (x.rg rb).toInt))))

/-- SEL (R125). -/
def execSel (c : CoreId) (rd ra rb bc : RegNo) (s : State) : Answer :=
  .next (issue s c (.sel c rd ra rb bc) fun x => results [(1, .g rd (if x.rbit bc then x.rg ra else x.rg rb))])

/-- ABSS (R125). -/
def execAbss (c : CoreId) (rd ra : RegNo) (s : State) : Answer :=
  .next (issue s c (.abss c rd ra) fun x => satRes rd 1 (sat32 ((x.rg ra).toInt.natAbs)))

/-- ADDI (R126). -/
def execAddi (c : CoreId) (rd ra : RegNo) (imm : Half) (s : State) : Answer :=
  .next (issue s c (.addi c rd ra imm) fun x => results [(1, .g rd (x.rg ra + imm.signExtend 32))])

/-- ADDSI (R126). -/
def execAddsi (c : CoreId) (rd ra : RegNo) (imm : Half) (s : State) : Answer :=
  .next (issue s c (.addsi c rd ra imm) fun x => satRes rd 1 (sat32 ((x.rg ra).toInt + imm.toInt)))

/-- ANDI (R126). -/
def execAndi (c : CoreId) (rd ra : RegNo) (imm : Half) (s : State) : Answer :=
  .next (issue s c (.andi c rd ra imm) fun x => results [(1, .g rd (x.rg ra &&& imm.setWidth 32))])

/-- ORI (R126). -/
def execOri (c : CoreId) (rd ra : RegNo) (imm : Half) (s : State) : Answer :=
  .next (issue s c (.ori c rd ra imm) fun x => results [(1, .g rd (x.rg ra ||| imm.setWidth 32))])

/-- XORI (R126). -/
def execXori (c : CoreId) (rd ra : RegNo) (imm : Half) (s : State) : Answer :=
  .next (issue s c (.xori c rd ra imm) fun x => results [(1, .g rd (x.rg ra ^^^ imm.setWidth 32))])

/-- ORHI (R126). -/
def execOrhi (c : CoreId) (rd ra : RegNo) (imm : Half) (s : State) : Answer :=
  .next (issue s c (.orhi c rd ra imm) fun x => results [(1, .g rd (x.rg ra ||| (imm.setWidth 32 <<< 16)))])

/-- SLTI (R126). -/
def execSlti (c : CoreId) (rd ra : RegNo) (imm : Half) (s : State) : Answer :=
  .next (issue s c (.slti c rd ra imm) fun x => results [(1, .g rd (ofBool 32 ((x.rg ra).slt (imm.signExtend 32))))])

/-- SLTIU (R126). -/
def execSltiu (c : CoreId) (rd ra : RegNo) (imm : Half) (s : State) : Answer :=
  .next (issue s c (.sltiu c rd ra imm) fun x => results [(1, .g rd (ofBool 32 ((x.rg ra).ult (imm.signExtend 32))))])

/-- SHI (R127). -/
def execShi (c : CoreId) (rd ra : RegNo) (kind : BitVec 2) (n : RegNo) (s : State) : Answer :=
  .next (issue s c (.shi c rd ra kind n) fun x => results [(1, .g rd (shiftOp kind.toNat (x.rg ra) n))])

/-- EXT; POS + w beyond 32 is an illegal instruction (R127). -/
def execExt (c : CoreId) (rd ra : RegNo) (sx : Bool) (w1 pos : RegNo) (s : State) : Answer :=
  .next (issue s c (.ext c rd ra sx w1 pos) fun x => if 32 < pos.val + w1.val + 1 then .fault 0x2002 0 0 else results [(1, .g rd (extOp (x.rg ra) sx (w1.val + 1) pos))])

/-- INS reads g[RD] in its issue cycle; POS + w beyond 32 is an illegal instruction (R127). -/
def execIns (c : CoreId) (rd ra w1 pos : RegNo) (s : State) : Answer :=
  .next (issue s c (.ins c rd ra w1 pos) fun x => if 32 < pos.val + w1.val + 1 then .fault 0x2002 0 0 else results [(1, .g rd (insOp (x.rg rd) (x.rg ra) (w1.val + 1) pos))])

/-- DIVS; an odd RD is an illegal instruction (R132, R133). -/
def execDivs (c : CoreId) (rd ra rb : RegNo) (s : State) : Answer :=
  .next (issue s c (.divs c rd ra rb) fun x => divRes rd (divS (x.rg ra) (x.rg rb)))

/-- DIVU; an odd RD is an illegal instruction (R132, R133). -/
def execDivu (c : CoreId) (rd ra rb : RegNo) (s : State) : Answer :=
  .next (issue s c (.divu c rd ra rb) fun x => divRes rd (divU (x.rg ra) (x.rg rb)))

end Sys2Proof.Machine
end

