-- ==== Sys2Proof/Machine/EvxBits.lean ====
section
/-! DEFINITION. Bit logic, compares and bit transfers (R123, R124). -/

namespace Sys2Proof.Machine

/-- BAND (R123). -/
def execBand (c : CoreId) (bd ba bb : RegNo) (s : State) : Answer :=
  .next (issue s c (.band c bd ba bb) fun x => results [(1, .b bd (x.rbit ba && x.rbit bb))])

/-- BOR (R123). -/
def execBor (c : CoreId) (bd ba bb : RegNo) (s : State) : Answer :=
  .next (issue s c (.bor c bd ba bb) fun x => results [(1, .b bd (x.rbit ba || x.rbit bb))])

/-- BXOR (R123). -/
def execBxor (c : CoreId) (bd ba bb : RegNo) (s : State) : Answer :=
  .next (issue s c (.bxor c bd ba bb) fun x => results [(1, .b bd (Bool.xor (x.rbit ba) (x.rbit bb)))])

/-- BANDN (R123). -/
def execBandn (c : CoreId) (bd ba bb : RegNo) (s : State) : Answer :=
  .next (issue s c (.bandn c bd ba bb) fun x => results [(1, .b bd (x.rbit ba && !(x.rbit bb)))])

/-- BORN (R123). -/
def execBorn (c : CoreId) (bd ba bb : RegNo) (s : State) : Answer :=
  .next (issue s c (.born c bd ba bb) fun x => results [(1, .b bd (x.rbit ba || !(x.rbit bb)))])

/-- BNAND (R123). -/
def execBnand (c : CoreId) (bd ba bb : RegNo) (s : State) : Answer :=
  .next (issue s c (.bnand c bd ba bb) fun x => results [(1, .b bd (!(x.rbit ba && x.rbit bb)))])

/-- BNOR (R123). -/
def execBnor (c : CoreId) (bd ba bb : RegNo) (s : State) : Answer :=
  .next (issue s c (.bnor c bd ba bb) fun x => results [(1, .b bd (!(x.rbit ba || x.rbit bb)))])

/-- BXNOR (R123). -/
def execBxnor (c : CoreId) (bd ba bb : RegNo) (s : State) : Answer :=
  .next (issue s c (.bxnor c bd ba bb) fun x => results [(1, .b bd (!(Bool.xor (x.rbit ba) (x.rbit bb))))])

/-- CEQ (R124). -/
def execCeq (c : CoreId) (bd ra rb : RegNo) (s : State) : Answer :=
  .next (issue s c (.ceq c bd ra rb) fun x => results [(1, .b bd (decide (x.rg ra = x.rg rb)))])

/-- CNE (R124). -/
def execCne (c : CoreId) (bd ra rb : RegNo) (s : State) : Answer :=
  .next (issue s c (.cne c bd ra rb) fun x => results [(1, .b bd (decide (x.rg ra ≠ x.rg rb)))])

/-- CLT (R124). -/
def execClt (c : CoreId) (bd ra rb : RegNo) (s : State) : Answer :=
  .next (issue s c (.clt c bd ra rb) fun x => results [(1, .b bd ((x.rg ra).slt (x.rg rb)))])

/-- CGE (R124). -/
def execCge (c : CoreId) (bd ra rb : RegNo) (s : State) : Answer :=
  .next (issue s c (.cge c bd ra rb) fun x => results [(1, .b bd (!((x.rg ra).slt (x.rg rb))))])

/-- CLTU (R124). -/
def execCltu (c : CoreId) (bd ra rb : RegNo) (s : State) : Answer :=
  .next (issue s c (.cltu c bd ra rb) fun x => results [(1, .b bd ((x.rg ra).ult (x.rg rb)))])

/-- CGEU (R124). -/
def execCgeu (c : CoreId) (bd ra rb : RegNo) (s : State) : Answer :=
  .next (issue s c (.cgeu c bd ra rb) fun x => results [(1, .b bd (!((x.rg ra).ult (x.rg rb))))])

/-- CTST (R124). -/
def execCtst (c : CoreId) (bd ra rb : RegNo) (s : State) : Answer :=
  .next (issue s c (.ctst c bd ra rb) fun x => results [(1, .b bd (decide (x.rg ra &&& x.rg rb ≠ 0)))])

/-- TBR (R124). -/
def execTbr (c : CoreId) (bd ra rb : RegNo) (s : State) : Answer :=
  .next (issue s c (.tbr c bd ra rb) fun x => results [(1, .b bd ((x.rg ra).getLsbD ((x.rg rb).toNat % 32)))])

/-- CNZ (R124). -/
def execCnz (c : CoreId) (bd ra : RegNo) (s : State) : Answer :=
  .next (issue s c (.cnz c bd ra) fun x => results [(1, .b bd (decide (x.rg ra ≠ 0)))])

/-- TBI (R124). -/
def execTbi (c : CoreId) (bd ra k : RegNo) (s : State) : Answer :=
  .next (issue s c (.tbi c bd ra k) fun x => results [(1, .b bd ((x.rg ra).getLsbD k))])

/-- BTOG (R124). -/
def execBtog (c : CoreId) (rd ba : RegNo) (s : State) : Answer :=
  .next (issue s c (.btog c rd ba) fun x => results [(1, .g rd (ofBool 32 (x.rbit ba)))])

/-- BINS reads g[RD] in its issue cycle (R124). -/
def execBins (c : CoreId) (rd ba k : RegNo) (s : State) : Answer :=
  .next (issue s c (.bins c rd ba k) fun x => results [(1, .g rd (setBit (x.rg rd) k (x.rbit ba)))])

end Sys2Proof.Machine
end

