-- ==== Sys2Proof/Machine/EvxCtl.lean ====
section
/-! DEFINITION. Core control, branches, calls and returns, segment registers, the system window, CSR and core queries (R122, R138 to R142). -/

namespace Sys2Proof.Machine

/-- NOP (R122). -/
def execNop (c : CoreId) (s : State) : Answer := .next (issue s c (.nop c) fun _ => results [])

/-- JR (R122). -/
def execJr (c : CoreId) (ra : RegNo) (imm : BitVec 12) (s : State) : Answer :=
  .next (issue s c (.jr c ra imm) fun x => noSlot x
    (.ok { delay := .jump ((x.rg ra + BitVec.ofInt 32 (4 * imm.toInt)) &&& 0xFFFFFFFC) }))

/-- Target p + 4 × DISP20 (R96). -/
def dispTarget (x : Ctx) (disp : BitVec 20) : Word := x.pc + BitVec.ofInt 32 (4 * disp.toInt)

/-- BR: the condition is read in the issue cycle (R138). -/
def execBr (c : CoreId) (bc : RegNo) (t : Bool) (disp : BitVec 20) (s : State) : Answer :=
  .next (issue s c (.br c bc t disp) fun x => noSlot x
    (.ok { delay := .jump (if x.rbit bc = t then dispTarget x disp else x.pc + 8) }))

/-- The descriptor of an instance call (R105): entry g[RI] of s0, of TYPE INST and passing R91. -/
def instDesc (s : State) (c : CoreId) (x : Ctx) (k : Nat) : Option Dword := instLoad s c x.s[0] k s.cores[c].cyc

/-- CALL, plain or instance (R105, R138). -/
def execCall (c : CoreId) (ri : RegNo) (disp : BitVec 20) (s : State) : Answer :=
  .next (issue s c (.call c ri disp) fun x => noSlot x
    (if x.link.length = 16 then .fault 0x2004 0 0
     else if ri = 0 then .ok { delay := .jump (dispTarget x disp), link := some ((x.pc + 8, x.s[1]) :: x.link), res := [(2, .s 1 x.s[1])] }
     else
       let k := (x.rg ri).toNat
       match instDesc s c x k with
       | none => .fault 0x2005 (if 8 * k + 7 > dLimit x.s[0] then 0 else 1) (8 * k)
       | some d =>
         .ok { delay := .jump (dispTarget x disp), link := some ((x.pc + 8, x.s[1]) :: x.link), res := [(2, .s 1 d)],
               reads := idtWords c x.s[0] k }))

/-- RET (R106, R138). -/
def execRet (c : CoreId) (at_ : Nat) (s : State) : Answer :=
  .next (issue s c (.ret c at_) fun x => noSlot x
    (match x.link with
     | [] => .ok { delay := .endTask at_ }
     | e :: r => .ok { delay := .jump e.1, link := some r, res := [(2, .s 1 e.2)] }))

/-- The program's segment register that RD names; none outside s8 to s15 (R94, R139). -/
def progSeg (rd : RegNo) : Option SegNo :=
  if h : 8 ≤ rd.val ∧ rd.val ≤ 15 then some ⟨rd.val, by omega⟩ else none

/-- SLD (R139). -/
def execSld (c : CoreId) (rd ra : RegNo) (imm : BitVec 12) (s : State) : Answer :=
  .next (issue s c (.sld c rd ra imm) fun x =>
    match progSeg rd with
    | none => .fault 0x2002 0 0
    | some sg =>
      let k := (x.rg ra + imm.setWidth 32).toNat
      if 8 * k + 7 > dLimit x.s[0] then .fault 0x2005 0 (8 * k)
      else
        let d := idtEntry s c x.s[0] k s.cores[c].cyc
        if descOk d then
          .ok { res := [(2, .s sg d)], reads := idtWords c x.s[0] k }
        else .fault 0x2005 sg.val (8 * k))

/-- SMK (R139). A descriptor that fails R91 is a fault with offset 0 (Assumption 120). -/
def execSmk (c : CoreId) (rd ra : RegNo) (s : State) : Answer :=
  .next (issue s c (.smk c rd ra) fun x =>
    match progSeg rd with
    | none => .fault 0x2002 0 0
    | some sg =>
      if ra.val % 2 = 1 then .fault 0x2002 0 0
      else
        let d := mkDesc (x.rg ra) (x.rg (nextReg ra))
        if descOk d then results [(2, .s sg d)] else .fault 0x2005 sg.val 0)

/-- The word that a core reads at an offset of its system window (Table 1-5, R40, R140); 0 at an offset not listed. -/
def sysWord (s : State) (c : CoreId) (ofs tb : Nat) : Word :=
  let k := s.cores[c]
  if ofs = 0x000 then lo32 tb
  else if ofs = 0x004 then k.tbHi
  else if ofs = 0x008 then lo32 s.tick.shownN
  else if ofs = 0x00C then hi32 s.tick.shownN
  else if ofs = 0x010 then lo32 s.tick.shownTs
  else if ofs = 0x014 then hi32 s.tick.shownTs
  else if ofs = 0x018 then BitVec.ofNat 32 (c.val + (if s.join.master then 0x100 else 0))
  else if ofs = 0x040 then k.evtFlags.setWidth 32
  else if ofs = 0x044 then k.evtPend.setWidth 32
  else if 0x100 ≤ ofs ∧ ofs ≤ 0x13C then k.mbxIn.toList.getD ((ofs - 0x100) / 4) 0
  else if 0x200 ≤ ofs ∧ ofs ≤ 0x23C then
    k.mbxStq.foldl (fun v e => if e.2.1.val = (ofs - 0x200) / 4 ∧ e.1 + 2 ≤ k.cyc then e.2.2 else v)
      (k.mbxOut.toList.getD ((ofs - 0x200) / 4) 0)
  else 0

/-- A system window load (R140, R41): TB_LO latches TB_HI, EVT_FLAGS clears what it returns. Its fault
names segment register 0 (Assumption 120). -/
def swlAt (s : State) (c : CoreId) (rd : RegNo) (ofs tb : Nat) : EOut :=
  if ofs % 4 ≠ 0 then .fault 0x2001 0 ofs
  else
    .ok { res := [(3, .g rd (sysWord s c ofs tb))],
          upd := fun k =>
            if ofs = 0x000 then { k with tbHi := hi32 tb }
            else if ofs = 0x040 then { k with evtFlags := 0 }
            else k }

/-- SWL, at the instant `at_` of its issue (R140). -/
def execSwl (c : CoreId) (rd : RegNo) (imm : BitVec 12) (at_ : Nat) (s : State) : Answer :=
  .next (issue (setNow s at_) c (.swl c rd imm at_) fun _ => swlAt s c rd imm.toNat (max s.now at_))

/-- A store to MBX_OUT, the only words marked W (R40, R140). -/
def execSws (c : CoreId) (ra : RegNo) (imm : BitVec 12) (s : State) : Answer :=
  .next (issue s c (.sws c ra imm) fun x =>
    let o := imm.toNat
    if h : o % 4 = 0 ∧ 0x200 ≤ o ∧ o ≤ 0x23C then
      .ok { upd := fun k => { k with mbxStq := k.mbxStq ++ [(k.cyc, ⟨(o - 0x200) / 4, by omega⟩, x.rg ra)] } }
    else .fault 0x2001 0 o)

/-- The read of TB_LO, which latches TB_HI for this core (R41). -/
def execTbLoRead (c : CoreId) (rd : RegNo) (at_ : Nat) (s : State) : Answer :=
  .next (issue (setNow s at_) c (.tbLoRead c rd at_) fun _ => swlAt s c rd 0x000 (max s.now at_))

/-- The read of EVT_FLAGS, which clears the bits that it returns as one (R140). -/
def execEvtFlagsRead (c : CoreId) (rd : RegNo) (s : State) : Answer :=
  .next (issue s c (.evtFlagsRead c rd) fun _ => swlAt s c rd 0x040 0)

/-- CSRR (R141). -/
def execCsrr (c : CoreId) (rd : RegNo) (s : State) : Answer :=
  .next (issue s c (.csrr c rd) fun x => results [(1, .g rd x.csr)])

/-- CSRW (R141, R142). -/
def execCsrw (c : CoreId) (ra : RegNo) (s : State) : Answer :=
  .next (issue s c (.csrw c ra) fun x => results [(1, .csrSet (x.rg ra &&& 0x1FF))])

/-- CSRS: CSR is a source, read at issue, and the result replaces CSR (R99, R141, R142). Assumption 121. -/
def execCsrs (c : CoreId) (ra : RegNo) (s : State) : Answer :=
  .next (issue s c (.csrs c ra) fun x => results [(1, .csrSet (x.csr ||| (x.rg ra &&& 0x1FF)))])

/-- CSRC, in the same way. -/
def execCsrc (c : CoreId) (ra : RegNo) (s : State) : Answer :=
  .next (issue s c (.csrc c ra) fun x => results [(1, .csrSet (x.csr &&& ~~~(x.rg ra)))])

/-- EVF returns EVT_FLAGS and clears the bits returned as one (R141). -/
def execEvf (c : CoreId) (rd : RegNo) (s : State) : Answer :=
  .next (issue s c (.evf c rd) fun _ =>
    .ok { res := [(3, .g rd (s.cores[c].evtFlags.setWidth 32))], upd := fun k => { k with evtFlags := 0 } })

/-- EVTB returns one bit of EVT_FLAGS and clears it (R141). -/
def execEvtb (c : CoreId) (bd : RegNo) (k : Fin 8) (s : State) : Answer :=
  .next (issue s c (.evtb c bd k) fun _ =>
    .ok { res := [(3, .b bd (s.cores[c].evtFlags.getLsbD k))],
          upd := fun q => { q with evtFlags := q.evtFlags &&& ~~~((1 : BitVec 8) <<< k.val) } })

/-- EVPB returns one bit of EVT_PEND (R141). -/
def execEvpb (c : CoreId) (bd : RegNo) (k : Fin 8) (s : State) : Answer :=
  .next (issue s c (.evpb c bd k) fun _ => results [(3, .b bd (s.cores[c].evtPend.getLsbD k))])

/-- RCYC (R141, R142). -/
def execRcyc (c : CoreId) (rd : RegNo) (s : State) : Answer :=
  .next (issue s c (.rcyc c rd) fun _ => results [(1, .g rd (BitVec.ofNat 32 s.cores[c].cyc))])

/-- RLSD (R141). -/
def execRlsd (c : CoreId) (rd : RegNo) (s : State) : Answer :=
  .next (issue s c (.rlsd c rd) fun x => results [(1, .g rd (BitVec.ofNat 32 x.link.length))])

/-- RCTX (R141). -/
def execRctx (c : CoreId) (rd : RegNo) (s : State) : Answer :=
  .next (issue s c (.rctx c rd) fun _ => results [(1, .g rd s.cores[c].rctx)])

end Sys2Proof.Machine
end

