-- ==== Sys2Proof/Machine/EvxFloat.lean ====
section
/-! DEFINITION. The emulated opcodes (R115 to R117, R143 to R145, Table 3-13). -/

namespace Sys2Proof.Machine

/-- FADD (R143, R144). -/
def execFadd (c : CoreId) (rd ra rb : RegNo) (s : State) : Answer :=
  .next (emulate s c (.fadd c rd ra rb) 96 fun x => fRes rd (fAdd f32 (x.rg ra).toNat (x.rg rb).toNat))

/-- FSUB (R143, R144). -/
def execFsub (c : CoreId) (rd ra rb : RegNo) (s : State) : Answer :=
  .next (emulate s c (.fsub c rd ra rb) 96 fun x => fRes rd (fSub f32 (x.rg ra).toNat (x.rg rb).toNat))

/-- FMUL (R143, R144). -/
def execFmul (c : CoreId) (rd ra rb : RegNo) (s : State) : Answer :=
  .next (emulate s c (.fmul c rd ra rb) 104 fun x => fRes rd (fMul f32 (x.rg ra).toNat (x.rg rb).toNat))

/-- FDIV (R143, R144). -/
def execFdiv (c : CoreId) (rd ra rb : RegNo) (s : State) : Answer :=
  .next (emulate s c (.fdiv c rd ra rb) 180 fun x => fRes rd (fDiv f32 (x.rg ra).toNat (x.rg rb).toNat))

/-- FSQRT (R143, R144). -/
def execFsqrt (c : CoreId) (rd ra : RegNo) (s : State) : Answer :=
  .next (emulate s c (.fsqrt c rd ra) 210 fun x => fRes rd (fSqrt f32 (x.rg ra).toNat))

/-- FEQ (R143, R144). -/
def execFeq (c : CoreId) (bd ra rb : RegNo) (s : State) : Answer :=
  .next (emulate s c (.feq c bd ra rb) 88 fun x => fCmp bd (fEq f32 (x.rg ra).toNat (x.rg rb).toNat))

/-- FLT (R143, R144). -/
def execFlt (c : CoreId) (bd ra rb : RegNo) (s : State) : Answer :=
  .next (emulate s c (.flt c bd ra rb) 88 fun x => fCmp bd (fLt f32 (x.rg ra).toNat (x.rg rb).toNat))

/-- FLE (R143, R144). -/
def execFle (c : CoreId) (bd ra rb : RegNo) (s : State) : Answer :=
  .next (emulate s c (.fle c bd ra rb) 88 fun x => fCmp bd (fLe f32 (x.rg ra).toNat (x.rg rb).toNat))

/-- FUN (R143, R144). -/
def execFun (c : CoreId) (bd ra rb : RegNo) (s : State) : Answer :=
  .next (emulate s c (.fun c bd ra rb) 88 fun x => fCmp bd (fUn f32 (x.rg ra).toNat (x.rg rb).toNat))

/-- FTOI (R143, R145). -/
def execFtoi (c : CoreId) (rd ra : RegNo) (s : State) : Answer :=
  .next (emulate s c (.ftoi c rd ra) 92 fun x =>
    let r := fToI32 f32 false (x.rg ra).toNat
    some [.g rd r.1, .csrOr (fCsr r.2)])

/-- FTOIR (R143, R145). -/
def execFtoir (c : CoreId) (rd ra : RegNo) (s : State) : Answer :=
  .next (emulate s c (.ftoir c rd ra) 92 fun x =>
    let r := fToI32 f32 true (x.rg ra).toNat
    some [.g rd r.1, .csrOr (fCsr r.2)])

/-- ITOF (R143). -/
def execItof (c : CoreId) (rd ra : RegNo) (s : State) : Answer :=
  .next (emulate s c (.itof c rd ra) 92 fun x => fRes rd (fOfInt f32 (x.rg ra).toInt))

/-- UTOF (R143). -/
def execUtof (c : CoreId) (rd ra : RegNo) (s : State) : Answer :=
  .next (emulate s c (.utof c rd ra) 92 fun x => fRes rd (fOfInt f32 (x.rg ra).toNat))

/-- DIV64U; an odd RD or RA is an illegal instruction, found after the trap (R143, R145). -/
def execDiv64u (c : CoreId) (rd ra rb : RegNo) (s : State) : Answer :=
  .next (emulate s c (.div64u c rd ra rb) 140 fun x =>
    if rd.val % 2 = 1 ∨ ra.val % 2 = 1 then none
    else
      let q := div64U (x.rg (nextReg ra)) (x.rg ra) (x.rg rb)
      some [.g rd q.1, .g (nextReg rd) q.2.1, .csrOr q.2.2])

/-- DIV64S; an odd RD or RA is an illegal instruction, found after the trap (R143, R145). -/
def execDiv64s (c : CoreId) (rd ra rb : RegNo) (s : State) : Answer :=
  .next (emulate s c (.div64s c rd ra rb) 140 fun x =>
    if rd.val % 2 = 1 ∨ ra.val % 2 = 1 then none
    else
      let q := div64S (x.rg (nextReg ra)) (x.rg ra) (x.rg rb)
      some [.g rd q.1, .g (nextReg rd) q.2.1, .csrOr q.2.2])

end Sys2Proof.Machine
end

