-- ==== Sys2Proof/Machine/EvxMem.lean ====
section
/-! DEFINITION. Loads, stores and the dual-fetch multiply-accumulate with its accumulators (R128 to R131, R134 to R137). -/

namespace Sys2Proof.Machine

/-- Offset of an M-format access (R96). -/
def mOfs (x : Ctx) (ra : RegNo) (z : Nat) (disp : BitVec 12) : Nat :=
  (x.rg ra + BitVec.ofInt 32 (disp.toInt * z)).toNat

/-- A load of `z` bytes through SG (R38, R92, R128, R129), with further results. -/
def loadAt (s : State) (c : CoreId) (x : Ctx) (rt : RegNo) (sg : SegNo) (z o : Nat) (more : List (Nat × Res)) : EOut :=
  let d := x.s[sg]
  if accessOk d false z o then
    let p := physOf c (dBase d + o)
    .ok { res := more ++ [(loadDist d, .g rt (BitVec.ofNat 32 (leNat (seenBytes s p z s.cores[c].cyc))))], reads := [p] }
  else .fault 0x2001 sg.val o

/-- A store of `z` bytes through SG (R38, R92, R128), with further results. -/
def storeAt (c : CoreId) (x : Ctx) (rt : RegNo) (sg : SegNo) (z o : Nat) (more : List (Nat × Res)) : EOut :=
  let d := x.s[sg]
  if accessOk d true z o then .ok { res := more, store := some (physOf c (dBase d + o), leBytes z (x.rg rt).toNat) }
  else .fault 0x2001 sg.val o

/-- step(s, o, n) of R130. -/
def stepOfs (d : Dword) (o : Nat) (n : Int) : Word :=
  let v : Int := o + n
  if dC d && decide (0 ≤ n) && decide ((dLimit d : Int) < v) then BitVec.ofInt 32 (v - (dLimit d + 1))
  else if dC d && decide (n < 0) && decide (v < 0) then BitVec.ofInt 32 (v + (dLimit d + 1))
  else BitVec.ofInt 32 v

/-- Access size of LDP and STP (R128); 0 for the illegal SZ = 3. -/
def pSize (sz : BitVec 2) : Nat := if sz = 0 then 1 else if sz = 1 then 2 else if sz = 2 then 4 else 0

/-- advance(d, o, n) of R108. -/
def advance (d : Dword) (o n : Nat) : Word :=
  let v := o + n
  if dC d && decide (dLimit d < v) then BitVec.ofNat 32 (v - (dLimit d + 1)) else BitVec.ofNat 32 v
/-- back(d, o, n) of R134. -/
def backOfs (d : Dword) (o n : Nat) : Word :=
  if dC d && decide (o < n) then BitVec.ofInt 32 ((o : Int) - n + (dLimit d + 1)) else BitVec.ofInt 32 ((o : Int) - n)

/-- A MAC (R108, R134, R136): `bx` and `by_` step the X and the Y offset backward. -/
def macAt (s : State) (c : CoreId) (x : Ctx) (bx by_ : Bool) (acc : AccNo) (sx sy : SegNo) (px py : RegNo) (ix iy : BitVec 2)
    (q neg : Bool) : EOut :=
  let dx := x.s[sx]
  let dy := x.s[sy]
  let ox := (x.rg px).toNat
  let oy := (x.rg py).toNat
  if !(inX dx) then .fault 0x2006 sx.val ox
  else if !(inY dy) then .fault 0x2006 sy.val oy
  else if !(accessOk dx false 4 ox) then .fault 0x2001 sx.val ox
  else if !(accessOk dy false 4 oy) then .fault 0x2001 sy.val oy
  else
    let p1 := physOf c (dBase dx + ox)
    let p2 := physOf c (dBase dy + oy)
    let j := s.cores[c].cyc
    let vx := (BitVec.ofNat 32 (leNat (seenBytes s p1 4 j))).toInt
    let vy := (BitVec.ofNat 32 (leNat (seenBytes s p2 4 j))).toInt
    let p := vx * vy * (if q then 2 else 1)
    let nx := if bx then backOfs dx ox (4 * (ix.toNat + 1)) else advance dx ox (4 * (ix.toNat + 1))
    let ny := if by_ then backOfs dy oy (4 * (iy.toNat + 1)) else advance dy oy (4 * (iy.toNat + 1))
    .ok { res := (if px = py then [(1, .g px nx)] else [(1, .g px nx), (1, .g py ny)]) ++
                 [(4, .accAdd acc (BitVec.ofInt 72 (if neg then -p else p)))],
          reads := [p1, p2] }

/-- LDB (R128, R129). -/
def execLdb (c : CoreId) (rt ra : RegNo) (sg : SegNo) (disp : BitVec 12) (s : State) : Answer :=
  .next (issue s c (.ldb c rt ra sg disp) fun x => loadAt s c x rt sg 1 (mOfs x ra 1 disp) [])

/-- LDH (R128, R129). -/
def execLdh (c : CoreId) (rt ra : RegNo) (sg : SegNo) (disp : BitVec 12) (s : State) : Answer :=
  .next (issue s c (.ldh c rt ra sg disp) fun x => loadAt s c x rt sg 2 (mOfs x ra 2 disp) [])

/-- LDW (R128, R129). -/
def execLdw (c : CoreId) (rt ra : RegNo) (sg : SegNo) (disp : BitVec 12) (s : State) : Answer :=
  .next (issue s c (.ldw c rt ra sg disp) fun x => loadAt s c x rt sg 4 (mOfs x ra 4 disp) [])

/-- STB (R128, R129). -/
def execStb (c : CoreId) (rt ra : RegNo) (sg : SegNo) (disp : BitVec 12) (s : State) : Answer :=
  .next (issue s c (.stb c rt ra sg disp) fun x => storeAt c x rt sg 1 (mOfs x ra 1 disp) [])

/-- STH (R128, R129). -/
def execSth (c : CoreId) (rt ra : RegNo) (sg : SegNo) (disp : BitVec 12) (s : State) : Answer :=
  .next (issue s c (.sth c rt ra sg disp) fun x => storeAt c x rt sg 2 (mOfs x ra 2 disp) [])

/-- STW (R128, R129). -/
def execStw (c : CoreId) (rt ra : RegNo) (sg : SegNo) (disp : BitVec 12) (s : State) : Answer :=
  .next (issue s c (.stw c rt ra sg disp) fun x => storeAt c x rt sg 4 (mOfs x ra 4 disp) [])

/-- LDP: the offset update has distance 1, the load its own (R128, R130, R131). -/
def execLdp (c : CoreId) (rt ra : RegNo) (sg : SegNo) (sz : BitVec 2) (stp : BitVec 10) (s : State) : Answer :=
  .next (issue s c (.ldp c rt ra sg sz stp) fun x => 
    if sz = 3 then .fault 0x2002 0 0
    else loadAt s c x rt sg (pSize sz) (x.rg ra).toNat [(1, .g ra (stepOfs x.s[sg] (x.rg ra).toNat (stp.toInt * pSize sz)))])

/-- STP stores the data register as it stands before the step (R128, R130, R131). -/
def execStp (c : CoreId) (rt ra : RegNo) (sg : SegNo) (sz : BitVec 2) (stp : BitVec 10) (s : State) : Answer :=
  .next (issue s c (.stp c rt ra sg sz stp) fun x => 
    if sz = 3 then .fault 0x2002 0 0
    else storeAt c x rt sg (pSize sz) (x.rg ra).toNat [(1, .g ra (stepOfs x.s[sg] (x.rg ra).toNat (stp.toInt * pSize sz)))])

/-- MAC (R108, R134, R136). -/
def execMac (c : CoreId) (acc : AccNo) (sx sy : SegNo) (px py : RegNo) (ix iy : BitVec 2) (q neg : Bool) (s : State) : Answer :=
  .next (issue s c (.mac c acc sx sy px py ix iy q neg) fun x => macAt s c x false false acc sx sy px py ix iy q neg)

/-- MACXB (R108, R134, R136). -/
def execMacxb (c : CoreId) (acc : AccNo) (sx sy : SegNo) (px py : RegNo) (ix iy : BitVec 2) (q neg : Bool) (s : State) : Answer :=
  .next (issue s c (.macxb c acc sx sy px py ix iy q neg) fun x => macAt s c x true false acc sx sy px py ix iy q neg)

/-- MACYB (R108, R134, R136). -/
def execMacyb (c : CoreId) (acc : AccNo) (sx sy : SegNo) (px py : RegNo) (ix iy : BitVec 2) (q neg : Bool) (s : State) : Answer :=
  .next (issue s c (.macyb c acc sx sy px py ix iy q neg) fun x => macAt s c x false true acc sx sy px py ix iy q neg)

/-- MACB (R108, R134, R136). -/
def execMacb (c : CoreId) (acc : AccNo) (sx sy : SegNo) (px py : RegNo) (ix iy : BitVec 2) (q neg : Bool) (s : State) : Answer :=
  .next (issue s c (.macb c acc sx sy px py ix iy q neg) fun x => macAt s c x true true acc sx sy px py ix iy q neg)

/-- ACLR (R135, R136). -/
def execAclr (c : CoreId) (acc : AccNo) (s : State) : Answer :=
  .next (issue s c (.aclr c acc) fun _ => results [(1, .acc acc 0)])

/-- AMOVW (R135, R136). -/
def execAmovw (c : CoreId) (acc : AccNo) (ra : RegNo) (s : State) : Answer :=
  .next (issue s c (.amovw c acc ra) fun x => results [(1, .acc acc ((x.rg ra).signExtend 72))])

/-- AMOVD (R135, R136). -/
def execAmovd (c : CoreId) (acc : AccNo) (ra rb : RegNo) (s : State) : Answer :=
  .next (issue s c (.amovd c acc ra rb) fun x => results [(1, .acc acc (BitVec.ofInt 72 ((x.rg rb).toInt * 2 ^ 32 + (x.rg ra).toNat)))])

/-- ASRA (R135, R136). -/
def execAsra (c : CoreId) (acc : AccNo) (rb : RegNo) (s : State) : Answer :=
  .next (issue s c (.asra c acc rb) fun x => results [(1, .acc acc (x.a[acc].sshiftRight (min ((x.rg rb).toNat % 128) 71)))])

/-- ARDL (R135). -/
def execArdl (c : CoreId) (rd : RegNo) (acc : AccNo) (s : State) : Answer :=
  .next (issue s c (.ardl c rd acc) fun x => results [(1, .g rd (BitVec.ofNat 32 x.a[acc].toNat))])

/-- ARDH (R135). -/
def execArdh (c : CoreId) (rd : RegNo) (acc : AccNo) (s : State) : Answer :=
  .next (issue s c (.ardh c rd acc) fun x => results [(1, .g rd (BitVec.ofNat 32 (x.a[acc].toNat / 2 ^ 32)))])

/-- ARDX (R135). -/
def execArdx (c : CoreId) (rd : RegNo) (acc : AccNo) (s : State) : Answer :=
  .next (issue s c (.ardx c rd acc) fun x => results [(1, .g rd (BitVec.ofInt 32 (x.a[acc].toInt / 2 ^ 64)))])

/-- ASATI (R135, R137). -/
def execAsati (c : CoreId) (rd : RegNo) (acc : AccNo) (s : State) : Answer :=
  .next (issue s c (.asati c rd acc) fun x => satRes rd 1 (sat32 x.a[acc].toInt))

/-- ASATQ (R135, R137). -/
def execAsatq (c : CoreId) (rd : RegNo) (acc : AccNo) (s : State) : Answer :=
  .next (issue s c (.asatq c rd acc) fun x => satRes rd 1 (sat32 (roundHi x.a[acc].toInt)))

end Sys2Proof.Machine
end

