-- ==== Sys2Proof/Machine/Keccak.lean ====
section
/-! DEFINITION. SHAKE256 of FIPS 202, the measurement of the trust unit. PRESUMED: the manual names
the function and this is its public definition. Assumption 4. -/

namespace Sys2Proof.Machine

/-- A plane of the permutation's state: the five lanes of one y. -/
structure Plane where
  x0 : Dword
  x1 : Dword
  x2 : Dword
  x3 : Dword
  x4 : Dword
  deriving DecidableEq, Repr

/-- The state of the sponge: 1,600 bits as five planes. -/
structure Slab where
  y0 : Plane
  y1 : Plane
  y2 : Plane
  y3 : Plane
  y4 : Plane
  deriving DecidableEq, Repr

/-- The plane whose lane x is `f x`. -/
def Plane.of (f : Nat → Dword) : Plane := ⟨f 0, f 1, f 2, f 3, f 4⟩
/-- Lane x of a plane; x counts modulo 5. -/
def Plane.lane (p : Plane) (x : Nat) : Dword :=
  match x % 5 with | 0 => p.x0 | 1 => p.x1 | 2 => p.x2 | 3 => p.x3 | _ => p.x4
/-- Two planes added bit by bit. -/
def Plane.add (p q : Plane) : Plane := .of fun x => p.lane x ^^^ q.lane x
/-- A plane with `v` added to its lane 0. -/
def Plane.addFirst (p : Plane) (v : Dword) : Plane := { p with x0 := p.x0 ^^^ v }
/-- Each lane of a plane with the product of its right-hand neighbours added (chi). -/
def Plane.chi (p : Plane) : Plane := .of fun x => p.lane x ^^^ (p.lane (x + 2) &&& ~~~p.lane (x + 1))
/-- What theta adds to every plane, from the plane of the column parities. -/
def Plane.spread (p : Plane) : Plane := .of fun x => (p.lane (x + 1)).rotateLeft 1 ^^^ p.lane (x + 4)

/-- The state whose plane y is `f y`. -/
def Slab.of (f : Nat → Plane) : Slab := ⟨f 0, f 1, f 2, f 3, f 4⟩
/-- Plane y of the state; y counts modulo 5. -/
def Slab.plane (a : Slab) (y : Nat) : Plane :=
  match y % 5 with | 0 => a.y0 | 1 => a.y1 | 2 => a.y2 | 3 => a.y3 | _ => a.y4
/-- The same change to every plane. -/
def Slab.map (a : Slab) (f : Plane → Plane) : Slab := .of fun y => f (a.plane y)
/-- The parities of the columns. -/
def Slab.parity (a : Slab) : Plane := (((a.y0.add a.y1).add a.y2).add a.y3).add a.y4
/-- Theta: the parities of two columns to every bit. -/
def Slab.theta (a : Slab) : Slab := a.map a.parity.spread.add
/-- The bytes of the state, plane by plane. -/
def Slab.bytes (a : Slab) : List Byte :=
  (List.range 25).flatMap fun i => leBytes 8 ((a.plane (i / 5)).lane i).toNat

/-- Rho's distance of lane (x, y): the number of the step at which the walk (u, v), (v, 2u + 3v), …
from (1, 0) comes to it gives a triangular number; the lane (0, 0) is on no step. -/
def rhoWalk (x y : Nat) : Nat → Nat → Nat → Nat → Nat
  | 0, _, _, _ => 0
  | left + 1, t, u, v =>
    if (u, v) = (x, y) then (t + 1) * (t + 2) / 2 % 64 else rhoWalk x y left (t + 1) v ((2 * u + 3 * v) % 5)
/-- The distance by which rho turns lane (x, y). -/
def rhoTurn (x y : Nat) : Nat := rhoWalk x y 24 0 1 0

/-- Rho and pi in one: lane (x, y) of the result is lane (x + 3y, x), turned. -/
def Slab.rhoPi (a : Slab) : Slab :=
  .of fun y => .of fun x => ((a.plane x).lane (x + 3 * y)).rotateLeft (rhoTurn ((x + 3 * y) % 5) x)

/-- The shift register of iota: multiplication by the variable modulo its polynomial. -/
def iotaShift (r : Byte) : Byte := if r.msb then (r <<< 1) ^^^ 0x71 else r <<< 1
/-- A round's constant: the register's low bit at bit 2^j - 1 for seven shifts, and the register after. -/
def iotaWord (r : Byte) : Dword × Byte :=
  (List.range 7).foldl
    (fun (w, r) j => (if r.getLsbD 0 then w ||| (1 : Dword) <<< (2 ^ j - 1) else w, iotaShift r)) (0, r)

/-- Rounds of the permutation from a register of iota. -/
def keccakRounds : Nat → Byte → Slab → Slab
  | 0, _, a => a
  | n + 1, r, a =>
    let (rc, r') := iotaWord r
    let b := a.theta.rhoPi.map Plane.chi
    keccakRounds n r' { b with y0 := b.y0.addFirst rc }

/-- A block of at most 136 bytes added to the state, then 24 rounds. -/
def spongeBlock (a : Slab) (b : List Byte) : Slab :=
  keccakRounds 24 1 (Slab.of fun y => (a.plane y).add
    (.of fun x => BitVec.ofNat 64 (leNat (padTo 8 ((b.drop (8 * (5 * y + x))).take 8)))))

/-- The blocks of a padded message, one after another. -/
def spongeBlocks : Nat → Slab → List Byte → Slab
  | 0, a, _ => a
  | n + 1, a, l => spongeBlocks n (spongeBlock a (l.take 136)) (l.drop 136)

/-- The first `n` bytes (at most 136) that the sponge of rate 136 gives for a message with the
domain bits `d` after it: zeros fill its last block, whose last bit is set. -/
def sponge (d : Byte) (n : Nat) (l : List Byte) : List Byte :=
  let blocks := l.length / 136 + 1
  let m := padTo (136 * blocks) (l ++ [d])
  let closed := m.take (136 * blocks - 1) ++ [m.getD (136 * blocks - 1) 0 ||| 0x80]
  (spongeBlocks blocks (Slab.of fun _ => .of fun _ => 0) closed).bytes.take n

/-- The first `n` bytes (at most 136) of SHAKE256. -/
def shake256 (n : Nat) (l : List Byte) : List Byte := sponge 0x1F n l

/-! ## KMAC256 (R527) -/

/-- The bytes of a number, most significant first, at least one. -/
def beBytes : Nat → Nat → List Byte
  | 0, _ => []
  | n + 1, v => if v < 256 then [BitVec.ofNat 8 v] else beBytes n (v / 256) ++ [BitVec.ofNat 8 v]
/-- left_encode. -/
def leftEncode (v : Nat) : List Byte := let b := beBytes 8 v; BitVec.ofNat 8 b.length :: b
/-- right_encode. -/
def rightEncode (v : Nat) : List Byte := let b := beBytes 8 v; b ++ [BitVec.ofNat 8 b.length]
/-- encode_string. -/
def encodeString (l : List Byte) : List Byte := leftEncode (8 * l.length) ++ l
/-- bytepad to the rate of 136 bytes. -/
def bytepad (l : List Byte) : List Byte :=
  let b := leftEncode 136 ++ l
  b ++ List.replicate ((136 - b.length % 136) % 136) 0
/-- KMAC256 with 256 bits of output (NIST SP 800-185, PRESUMED as SHAKE256 is; Assumption 4): the
function's name, the customisation, the key, the message and the length asked for. -/
def kmac256 (key custom msg : List Byte) : List Byte :=
  let name := bytepad (encodeString [0x4B, 0x4D, 0x41, 0x43] ++ encodeString custom)
  sponge 0x04 32 (name ++ bytepad (encodeString key) ++ msg ++ rightEncode 256)

end Sys2Proof.Machine
end

