-- ==== Sys2Proof/Machine/Tune.lean ====
section
/-! DEFINITION. Tuning unit (R346 to R361): starts and stops of runs and captures, identification, proposals. What
acts at a loop's update stands in Loop.lean. -/

namespace Sys2Proof.Machine

/-! ## Starts and stops (R346, R352) -/

/-- The words of TUNE[n] lie in the ranges of Table 11-7 and satisfy R351. -/
def tuneCfgOk (s : State) (n : LoopNo) : Bool :=
  let w := fun (o : Nat) => rw s (K.TUNEk_CTRL n + o)
  let sig := w 1
  let order := (field sig 11 8).toNat
  let len := (w 3).toNat
  let dec := (w 4).toNat
  let kind := (field sig 1 0).toNat
  decide (kind < 2) && decide (1 ≤ (field sig 23 16).toNat) && decide (5 ≤ order) && decide (order ≤ 12) &&
    flt 0 (w 2) && ffin (w 2) && decide (64 ≤ len) && decide (len ≤ 4194304) && decide (1 ≤ dec) && decide (dec ≤ 256) &&
    decide (len % dec = 0) && decide (64 ≤ len / dec) && decide (len / dec ≤ 16384) &&
    flt 0 (w 5) && fle 0 (w 6) && fle 0 (w 7) && fle (w 7) fOne && fle fOne (w 8)

/-- The capture memory is busy (R351). -/
def capBusy (s : State) : Bool := s.loop.cap.st = 1 || s.loop.cap.st = 2

/-- A refusal with BUSY sets TUNE.STATUS.BUSY. -/
def tuneBusy (s : State) : State × Nat := (orw s K.TUNE_STATUS 1, stBusy)

/-- The start of a tune run by the session in `owner`, or by the module itself (R346, R359). -/
def tuneStart (s : State) (n : Nat) (owner : Option Nat) : State × Nat :=
  if h : n < 96 then
    let k : LoopNo := ⟨n, h⟩
    let q := loopRec s k
    if nloop s ≤ n || loopCfgFail s k ≠ 0 || !(tuneCfgOk s k) then (s, stCfg)
    else if (q.state ≠ 1 ∧ q.state ≠ 2) || q.flag 2 then (s, stState)
    else if capBusy s then tuneBusy s
    else
      ({ s with loop := { s.loop with
          run := some { loop := n, owner := owner, entered := false, j := 0, y0 := 0, close0 := false, g := fOne, lfsr := 0, w := 0,
                        ident := false, found := none }
          cap := { Cap.idle with st := 1, loop := n, owner := owner } } }, stOk)
  else (s, stCfg)

/-- TUNE_STOP of the session in `slot` (R346). -/
def tuneStop (s : State) (n slot : Nat) : State × Nat :=
  match s.loop.run with
  | none => (s, stState)
  | some r =>
    if r.loop ≠ n then (s, stState)
    else if r.owner ≠ some slot then tuneBusy s
    else if h : r.loop < 96 then
      (runEnds (s.updLoop ⟨r.loop, h⟩ LoopRec.leaveTuning) ⟨r.loop, h⟩ 7, stOk)
    else (s, stState)

/-- CAPTURE_START: loop, channel selectors, decimation, count (R352). -/
def captureStart (s : State) (n : Nat) (sel : List Nat) (dec count slot : Nat) : State × Nat :=
  if sel.length ≠ 4 || sel.any (fun x => decide (8 < x)) || dec = 0 || 256 < dec || count = 0 || 16384 < count then (s, stCfg)
  else if capBusy s then tuneBusy s
  else if h : n < 96 then
    if nloop s ≤ n || ((loopRec s ⟨n, h⟩).state ≠ 1 && (loopRec s ⟨n, h⟩).state ≠ 2) then (s, stState)
    else
      ({ s with loop := { s.loop with cap := { st := 1, loop := n, owner := some slot, sel := sel, dec := dec, count := count, k := 0, data := [] } } },
        stOk)
  else (s, stState)

/-- CAPTURE_RELEASE of the owning session (R352). -/
def captureRelease (s : State) (slot : Nat) : State × Nat :=
  let c := s.loop.cap
  if c.st = 0 then (s, stState)
  else if c.owner ≠ some slot then tuneBusy s
  else if c.st = 2 ∨ s.loop.run.isSome then tuneBusy s
  else ({ s with loop := { s.loop with cap := { c with st := 0 } } }, stOk)

/-- SUP_BASELINE: the next complete window gives the baseline (R358). -/
def supBaseline (s : State) (n : Nat) : State × Nat :=
  if h : n < 96 then
    if nloop s ≤ n then (s, stCfg) else (s.updRt ⟨n, h⟩ fun t => { t with baseReq := true }, stOk)
  else (s, stCfg)

/-! ## Proposals (R355, R356) -/

/-- A proposal is written to the loop's coefficients; `source` is 1 AUTO or 2 COMMAND. -/
def applyProposal (s : State) (n : LoopNo) (source : Nat) : State :=
  let s := sw s (K.LOOPk_KP n) (rw s (K.TUNEk_PROP_KP n))
  let s := sw s (K.LOOPk_KI n) (rw s (K.TUNEk_PROP_KI n))
  let s := sw s (K.LOOPk_KD n) (rw s (K.TUNEk_PROP_KD n))
  let s := sw s (K.LOOPk_TF n) (rw s (K.TUNEk_PROP_TF n))
  let s := (sn s (K.TUNEk_PROP_STATE n) 2).updRt n fun t => { t with baseReq := true }
  ev s 0x5013 (p4 n ++ p4 source)

/-- TUNE_APPLY (R356). -/
def tuneApply (s : State) (n : Nat) : State × Nat :=
  if h : n < 96 then
    let k : LoopNo := ⟨n, h⟩
    if nloop s ≤ n || field (rw s (K.TUNEk_PROP_STATE k)) 1 0 ≠ 1 then (s, stCfg)
    else if 1 < (loopRec s k).state then (cfgRej s 0x600, stState)
    else (applyProposal s k 2, stOk)
  else (s, stCfg)

/-! ## Identification (R353, R354), in binary64 -/

/-- x + y. -/
def da (x y : Nat) : Nat := (fAdd f64 x y).1
/-- x - y. -/
def ds (x y : Nat) : Nat := (fSub f64 x y).1
/-- x · y. -/
def dm (x y : Nat) : Nat := (fMul f64 x y).1
/-- x ÷ y. -/
def dd (x y : Nat) : Nat := (fDiv f64 x y).1
/-- x < y. -/
def dlt (x y : Nat) : Bool := (fLt f64 x y).1
/-- An integer. -/
def dofI (v : Int) : Nat := (fOfInt f64 v).1
/-- A binary32 word. -/
def dof32 (w : Word) : Nat := (fConv f32 f64 w.toNat).1
/-- Rounded to binary32. -/
def dto32 (x : Nat) : Word := BitVec.ofNat 32 (fConv f64 f32 x).1
/-- Smaller of two. -/
def dmin (x y : Nat) : Nat := if dlt y x then y else x

/-- Sums of the normal equations: y1·y1, y1·u, y1, u·u, u, n, y·y1, y·u, y. -/
structure NormSums where
  aa : Nat
  ab : Nat
  a : Nat
  bb : Nat
  b : Nat
  n : Nat
  ya : Nat
  yb : Nat
  y : Nat

/-- Sums over k in ascending order; the lists hold y[k], y[k-1] and u[k-1-d]. -/
def normSums (t : NormSums) : List (Nat × Nat × Nat) → NormSums
  | [] => t
  | (y, y1, u) :: r =>
    normSums { aa := da t.aa (dm y1 y1), ab := da t.ab (dm y1 u), a := da t.a y1, bb := da t.bb (dm u u), b := da t.b u, n := da t.n (dofI 1),
               ya := da t.ya (dm y y1), yb := da t.yb (dm y u), y := da t.y y } r

/-- The regressor triples of dead time `d`: (y[k], y[k-1], u[k-1-d]) for k = d + 1 to N - 1. -/
def regressors (ys us : List Nat) (d : Nat) : List (Nat × Nat × Nat) :=
  ((ys.drop (d + 1)).zip ((ys.drop d).zip us))

/-- Row `i` and the rows from it on, with the row of the largest pivot first. -/
def pivotRow (c : Nat) : List (List Nat) → List (List Nat)
  | [] => []
  | r :: rs =>
    match pivotRow c rs with
    | [] => [r]
    | p :: ps => if dlt (fAbs f64 (r.getD c 0)) (fAbs f64 (p.getD c 0)) then p :: r :: ps else r :: p :: ps

/-- Gaussian elimination with partial pivoting of a system of rows (coefficients, right side) from column `c` on; `lim` is the least
magnitude of a pivot. None where the system is singular. -/
def gauss (lim : Nat) : Nat → Nat → List (List Nat) → Option (List Nat)
  | 0, _, _ => some []
  | n + 1, c, rows =>
    match pivotRow c rows with
    | [] => none
    | p :: rest =>
      if dlt (fAbs f64 (p.getD c 0)) lim then none
      else
        let low := rest.map fun r =>
          let f := dd (r.getD c 0) (p.getD c 0)
          (List.range 4).map fun j => ds (r.getD j 0) (dm f (p.getD j 0))
        match gauss lim n (c + 1) low with
        | none => none
        | some xs =>
          let acc := ((List.range xs.length).zip xs).foldl (fun v q => ds v (dm (p.getD (c + 1 + q.1) 0) q.2)) (p.getD 3 0)
          some (dd acc (p.getD c 0) :: xs)

/-- A model y[k] = a y[k-1] + b u[k-1-d] + c with its fit. -/
structure IdModel where
  d : Nat
  a : Nat
  b : Nat
  c : Nat
  fit : Nat

/-- The model of dead time `d` (R353). -/
def identOne (ys us : List Nat) (d : Nat) : Option IdModel :=
  let rs := regressors ys us d
  let t := normSums ⟨0, 0, 0, 0, 0, 0, 0, 0, 0⟩ rs
  let big := [t.aa, t.bb, t.n].foldl (fun m v => if dlt m (fAbs f64 v) then fAbs f64 v else m) 0
  let lim := dm (dd (dofI 1) (dofI 1000000000000)) big
  match gauss lim 3 0 [[t.aa, t.ab, t.a, t.ya], [t.ab, t.bb, t.b, t.yb], [t.a, t.b, t.n, t.y]] with
  | some [a, b, c] =>
    let mean := dd t.y t.n
    let sv := rs.foldl (fun (q : Nat × Nat) x =>
      let e := ds x.1 (da (da (dm a x.2.1) (dm b x.2.2)) c)
      let v := ds x.1 mean
      (da q.1 (dm e e), da q.2 (dm v v))) (0, 0)
    some ⟨d, a, b, c, ds (dofI 1) (dd sv.1 sv.2)⟩
  | _ => none

/-- The model of the largest fit, the smallest dead time where several have it. -/
def identBest (ys us : List Nat) : Option IdModel :=
  let n := ys.length
  (List.range (min 32 (n / 4) + 1)).foldl (fun best d =>
    match identOne ys us d, best with
    | none, b => b
    | some m, none => some m
    | some m, some b => if dlt b.fit m.fit then some m else some b) none

/-- ln in binary64: the natural logarithm rounded to nearest (R353). -/
def dln (x : Nat) : Nat := (fLn f64 x).1

/-- What a complete identification reports (R353, R354): words of TUNE[n] with their values. -/
def identify (s : State) (n : LoopNo) : List (Nat × Word) :=
  let data := s.loop.cap.data
  let ys := ((data.getD 0 []).reverse).map dof32
  let us := ((data.getD 1 []).reverse).map dof32
  match identBest ys us with
  | none => [(K.TUNEk_PROP_STATE n, 0x103)]
  | some m =>
    let one := dofI 1
    let half := dd one (dofI 2)
    let hs := dm (dofI (rn s (K.TUNEk_TDEC n))) (dof32 (loopH s n))
    let k := dd m.b (ds one m.a)
    let tau := dd (fNeg f64 hs) (dln m.a)
    let theta := dm (da (dofI m.d) half) hs
    let model := [(K.TUNEk_MODEL_K n, dto32 k), (K.TUNEk_MODEL_TAU n, dto32 tau), (K.TUNEk_MODEL_THETA n, dto32 theta), (K.TUNEk_FIT n, dto32 m.fit)]
    if !(dlt 0 m.a && dlt m.a one) then model ++ [(K.TUNEk_PROP_STATE n, 0x203)]
    else if !(dlt 0 k) then model ++ [(K.TUNEk_PROP_STATE n, 0x303)]
    else if dlt m.fit (dof32 (rw s (K.TUNEk_FITMIN n))) || fIsNan f64 m.fit then model ++ [(K.TUNEk_PROP_STATE n, 0x403)]
    else
      let tauc := if fabs (rw s (K.TUNEk_TAUC n)) = 0 then theta else dof32 (rw s (K.TUNEk_TAUC n))
      let sum := da tauc theta
      let kp := dd tau (dm k sum)
      let ki := dd kp (dmin tau (dm (dofI 4) sum))
      model ++ [(K.TUNEk_PROP_KP n, dto32 kp), (K.TUNEk_PROP_KI n, dto32 ki), (K.TUNEk_PROP_STATE n, 1)]

/-- Identification finishes (R353); the tick's Phase O reports it. -/
def execIdentComplete (at_ : Nat) (s : State) : Answer :=
  let s := setNow s at_
  .next (
    match s.loop.run with
    | some r =>
      if h : r.loop < 96 then
        if r.ident && r.found.isNone then s.updRun fun q => { q with found := some (identify s ⟨r.loop, h⟩) } else s
      else s
    | none => s)

/-! ## Phase O (R347, R355, R359) -/

/-- The ratio of proposed to present lies from 1 ÷ MAXCHG to MAXCHG, or the present value is 0 (R355). -/
def ratioOk (s : State) (n : LoopNo) (new old : Word) : Bool :=
  let m := rw s (K.TUNEk_MAXCHG n)
  feqz old || (fle (fd fOne m) (fd new old) && fle (fd new old) m)
where
  /-- The word is a zero. -/
  feqz (x : Word) : Bool := fabs x = 0

/-- IDENT ends in the Phase O after identification completed: the proposal is applied if R355 allows it, and the
loop returns to TRET (R347). -/
def identEnd (s : State) : State :=
  match s.loop.run with
  | none => s
  | some r =>
    if h : r.loop < 96 then
      match r.found with
      | none => s
      | some l =>
        let n : LoopNo := ⟨r.loop, h⟩
        let s := l.foldl (fun (s : State) (q : Nat × Word) => sw s q.1 q.2) (proposalEnds s n)
        let proposed := decide (field (rw s (K.TUNEk_PROP_STATE n)) 1 0 = 1)
        let ok := ratioOk s n (rw s (K.TUNEk_PROP_KP n)) (rw s (K.LOOPk_KP n)) && ratioOk s n (rw s (K.TUNEk_PROP_KI n)) (rw s (K.LOOPk_KI n))
        let auto := rb s (K.TUNEk_CTRL n) 0
        let s := if proposed && auto && !ok then sn s (K.TUNEk_PROP_STATE n) 0x501 else s
        let word := fun (k : Nat) => leBytes 4 (rw s k).toNat
        let s := ev s 0x5012 (p4 n ++ word (K.TUNEk_MODEL_K n) ++ word (K.TUNEk_MODEL_TAU n) ++ word (K.TUNEk_MODEL_THETA n) ++
          word (K.TUNEk_FIT n) ++ word (K.TUNEk_PROP_STATE n))
        let s := if proposed && auto && ok then applyProposal s n 1 else s
        runEnds (s.updLoop n LoopRec.leaveTuning) n 0
    else s

/-- Degradations with RETUNE start a run from the module itself; a refused one sets RTBUSY (R359). -/
def retunes (s : State) : State :=
  loopIds.foldl (fun (s : State) (n : LoopNo) =>
    if s.loop.rt[n].retune then
      let s := s.updRt n fun t => { t with retune := false }
      let r := tuneStart s n none
      if r.2 = stOk then r.1 else orw s K.TUNE_STATUS 2
    else s) s

end Sys2Proof.Machine
end

