-- ==== Sys2Proof/Machine/Lane.lean ====
section
/-! DEFINITION. What the module sends on the Rinkaset lanes, S-A, S-B, J-A and J-B (R362 to R365, R392 to R394), and the
members of the pairing unit's state that other units ask for. -/

namespace Sys2Proof.Machine

/-- Update the pairing unit. -/
def State.updPair (s : State) (f : Pair → Pair) : State := { s with pair := f s.pair }
/-- Update the join. -/
def State.updJoin (s : State) (f : Join → Join) : State := { s with join := f s.join }

/-- Port S is enabled. -/
def sOn (s : State) : Bool := rb s K.PAIR_S_ENABLE 0
/-- This module was started with port J enabled (R396). -/
def jOn (s : State) : Bool := s.join.on
/-- State of a lane: 0 NOSIG, 1 SILENT, 2 UP. -/
def laneSt (s : State) (l : Fin 4) : Nat := s.pair.lanes[l].st
/-- The partner of port S is reachable (R366). -/
def reachable (s : State) : Bool := decide (laneSt s 0 = 2) || decide (laneSt s 1 = 2)
/-- The partner of port J is reachable (R392). -/
def jReachable (s : State) : Bool := decide (laneSt s 2 = 2) || decide (laneSt s 3 = 2)
/-- Port J is joined. -/
def joined (s : State) : Bool := decide (s.join.st = 2)
/-- The first edge of RUN may come: that of a join is the first one after both members have seen the other's JOINED flag (R396). -/
def joinGo (s : State) : Bool := !(joined s) || s.join.flagSent
/-- The module is in a quad (R407). -/
def inQuad (s : State) : Bool := jOn s && s.join.quad

/-- The first 8 bytes of the running PROGID. -/
def progid8 (s : State) : List Byte := match s.prog with | some g => padTo 8 (g.progid.take 8) | none => padTo 8 []
/-- PEERPROG of the running image (R395). -/
def peerProg (s : State) : List Byte := match s.prog with | some g => padTo 8 (g.peerProg.take 8) | none => padTo 8 []
/-- Member of the running image; 16#FF for none. -/
def jMember (s : State) : Nat := match s.prog with | some g => g.member | none => 0xFF

/-- A packet between K27.7 and K29.7: header, payload and CRC-32 (R363). -/
def packet (kind : Nat) (pay : List Byte) : List Byte :=
  let b := leBytes 1 kind ++ leBytes 1 0 ++ leBytes 2 pay.length ++ pay
  b ++ leBytes 4 (crc32 b)

/-- Precedence of a packet on its lane: heartbeats and RELEASE, then CTRL, then the streams, then SYNC (R364, R393). -/
def laneRank (kind : Nat) : Nat :=
  match kind with
  | 0x01 | 0x05 | 0x21 => 0
  | 0x07 | 0x24 => 1
  | 0x06 => 3
  | _ => 2

/-- An output of the present instant. -/
def Out.isNow (ts : Nat) : Out → Bool
  | .link _ t _ => decide (t = ts)
  | .lane _ t _ => decide (t = ts)
  | .bus _ t _ _ _ => decide (t = ts)
  | .panel _ _ t _ _ => decide (t = ts)
  | .value .. => true
  | .retState _ t _ => decide (t = ts)
  | .bhp t _ _ _ => decide (t = ts)
  | .eth t _ _ _ => decide (t = ts)

/-- A packet of the same lane and instant that gives way to one of a rank; so does what goes beside a SEAL or a SYNC line. -/
def Out.yields (l ts rank : Nat) : Out → Bool
  | .lane m t b => decide (m = l) && decide (t = ts) && decide (rank < laneRank (b.headD 0).toNat)
  | .retState m t _ => decide (m = l) && decide (t = ts) && decide (rank < 2)
  | _ => false

/-- A packet is placed before every packet of its instant that gives way to it; none where none does. The list is newest first. -/
def placePacket (l ts rank : Nat) (o : Out) : List Out → Option (List Out)
  | [] => none
  | p :: r =>
    if !(p.isNow ts) then none
    else match placePacket l ts rank o r with
      | some q => some (p :: q)
      | none => if p.yields l ts rank then some (p :: o :: r) else none

/-- Send on one lane, in the order of precedence among the packets that are handed to the lane at one instant (R364, R393). Assumption 132. -/
def sendLane (s : State) (l : Nat) (kind : Nat) (pay : List Byte) : State :=
  let o := Out.lane l s.now (packet kind pay)
  { s with out := (placePacket l s.now (laneRank kind) o s.out).getD (o :: s.out) }
/-- Send on both lanes of port S. -/
def sendS (s : State) (kind : Nat) (pay : List Byte) : State := sendLane (sendLane s 0 kind pay) 1 kind pay
/-- Send on every lane of port S that is UP (R204, R364). -/
def sendUp (s : State) (kind : Nat) (pay : List Byte) : State :=
  let s := if laneSt s 0 = 2 then sendLane s 0 kind pay else s
  if laneSt s 1 = 2 then sendLane s 1 kind pay else s
/-- Send on both lanes of port J. -/
def sendJ (s : State) (kind : Nat) (pay : List Byte) : State := sendLane (sendLane s 2 kind pay) 3 kind pay

/-- SYS.STATE as heartbeats carry it: 1 during a start before CEDAR (Table 12-2). -/
def hbState (s : State) : Nat := if s.mode = .off then 1 else modeCode s.mode

/-- The module holds the Pearl. -/
def hasPearl (s : State) : Bool := decide (s.role = .active) && !s.pair.gaveUp && !s.pair.gate

/-- The heartbeat of port S at the present edge (Table 12-2). -/
def hbBytes (s : State) : List Byte :=
  let fl := (if s.pair.swap.isSome then 0x20 else 0) + (if s.pair.unilateral then 0x10 else 0) + (if s.ret.x.incomplete then 8 else 0) +
    (if s.pair.lost then 4 else 0) + (if rb s K.PAIR_PREF 0 then 2 else 0) + (if hasPearl s then 1 else 0)
  leBytes 1 (roleCode (shownRole s)) ++ leBytes 1 (hbState s) ++ leBytes 2 fl ++ p4 s.ret.x.epoch ++ p8 s.tick.n ++ p8 s.tick.edgeTs ++
    p8 (match s.pair.peer with | some h => h.tick | none => 2 ^ 64 - 1) ++ p8 s.ret.durTick ++ progid8 s ++ p4 (periodT s) ++
    leBytes 1 (rn s K.PAIR_LEASE) ++ padTo 3 [] ++ p8 Config.moduleSerial.toNat

/-- The join heartbeat at the present edge (Table 13-2). -/
def jhbBytes (s : State) : List Byte :=
  let fl := (if s.pair.entitled.isSome && inQuad s then 8 else 0) + (if rb s K.ENC_AVALID 0 then 4 else 0) +
    (if s.join.st = 3 then 2 else 0) + (if s.join.st = 2 ∨ (s.join.st = 1 ∧ s.join.got) then 1 else 0)
  leBytes 1 (jMember s) ++ leBytes 1 (hbState s) ++ leBytes 2 fl ++ p8 s.tick.n ++ p8 s.tick.edgeTs ++ p4 (rn s K.ENC_THETA0) ++
    p4 (rn s K.ENC_OMEGA) ++ progid8 s ++ p4 (periodT s) ++ peerProg s

/-- A JCTRL packet (Table 13-1): 1 SAFE, 2 HOLD, 3 MAPDONE, 4 STOP, 5 ENTITLED. -/
def sendJctrl (s : State) (step tick : Nat) : State := if jOn s then sendJ s 0x24 (p4 step ++ p8 tick ++ p4 0) else s
/-- A CTRL packet (Table 12-1): 1 swap, 2 exchange. -/
def sendCtrl (s : State) (step tick : Nat) : State := sendS s 0x07 (p4 step ++ p8 tick ++ p4 0)

/-- The heartbeats of an edge: in every state except OFF and RESET (R365, R394); those of port S while it is enabled. -/
def sendHeartbeats (s : State) : State :=
  if s.mode = .off || s.mode = .reset then s
  else
    let s := if sOn s then
        (sendS s 0x01 (hbBytes s)).updPair fun p => { p with sent := ((s.tick.n, s.now) :: p.sent).take 128 }
      else s
    (sendJ s 0x21 (jhbBytes s)).updJoin fun j => { j with flagSent := j.flagSent || decide (j.st = 2 ∨ (j.st = 1 ∧ j.got)) }

/-- A safe burst is under way on some link. -/
def bursting (s : State) : Bool := linkIds.any fun k => decide (0 < s.links[k].burst)
/-- RELEASE leaves. -/
def releaseNow (s : State) : State :=
  (sendS s 0x05 (p8 s.pair.outTick ++ p8 s.now)).updPair fun p => { p with relDue := false }
/-- A module that holds the Pearl gives it up, and sends RELEASE once its outputs have stopped: after a safe burst, with its last
frame (R375). -/
def sendRelease (s : State) : State :=
  if sOn s && decide (s.role = .active) && !s.pair.gaveUp then
    let s := s.updPair fun p => { p with gaveUp := true, leaseX := none }
    if bursting s then s.updPair fun p => { p with relDue := true } else releaseNow s
  else s
/-- The next frame of a safe burst leaves, 50 µs after the one before it (R283); the last one may release the Pearl. -/
def execSafeBurstFrame (k : Fin 16) (s : State) : Answer :=
  let s := burstFrame k s
  .next (if s.pair.relDue && !(bursting s) then releaseNow s else s)

end Sys2Proof.Machine
end

