-- ==== Sys2Proof/Machine/Retained.lean ====
section
/-! DEFINITION. The Amber commit and the retained store (R184 to R207). The recovery is in Start, and the acknowledgements are in
Host. -/

namespace Sys2Proof.Machine

/-- Update the retained store. -/
def State.updRet (s : State) (f : Ret → Ret) : State := { s with ret := f s.ret }
/-- Update the executive's working copy of the journals, in `n` journal lines. -/
def State.updJ (s : State) (n : Nat) (f : Journals → Journals) : State := addJournal (s.updRet fun r => { r with j := f r.j }) n
/-- Update the executive's retained state, in `n` lines (R201). -/
def State.updX (s : State) (n : Nat) (f : ExecRet → ExecRet) : State :=
  s.updRet fun r => { r with x := f r.x, resv := r.resv + 2 * n }

/-! ## Limits (R200 to R202) -/

/-- The change limit L in bytes (R200). -/
def changeLimit (s : State) (t : Nat) : Nat := if sOn s then min 262144 (375 * t / 2) else min 262144 (400 * t)
/-- L_LOOP of an image: 96 records of 32 bytes, and its output loops area in whole lines (R201). -/
def loopAllow (g : Image) : Nat :=
  3072 + (match g.areas.find? fun a => a.code = 5 && a.dir = 1 with | some a => (a.len + 63) / 64 * 64 | none => 0)
/-- An image keeps within the change limit (R202). -/
def limitOk (s : State) (g : Image) : Bool := decide (g.chgmax + loopAllow g + 4096 ≤ changeLimit s g.hdr.period)
/-- Lines of a migration tick (R177). -/
def migrLines (s : State) : Nat := (changeLimit s (periodT s) - 4096) / 64

/-! ## The commit (R192 to R203) -/

/-- The newest record, while its commit has not completed. -/
def openRec (s : State) : Option Rec :=
  match s.ret.dir.getLast? with
  | some r => if r.st = .applied ∨ r.body = none then none else some r
  | none => none

/-- Replace the newest record. -/
def setRec (s : State) (r : Rec) : State := s.updRet fun q => { q with dir := q.dir.dropLast ++ [r] }

/-- A new record enters the directory of 256 entries; the oldest entry that is not SEALED gives way (R198). -/
def addRec (s : State) (r : Rec) : State :=
  s.updRet fun q => { q with dir := (if q.dir.length < 256 then q.dir else q.dir.drop 1) ++ [r], logNext := (q.logNext + r.nlines) % 65536 }

/-- A retained line as the memories hold it: the executive's retained state stands in its last 4,096 lines. -/
def lineBytes (s : State) (l : Nat) : List Byte := if l < execLine0 then readMem s (homePhys l) 64 else xBytes s.ret.x (l - execLine0)

/-- The staged set: changed lines of memory and of the executive's retained state in home line order, then the changed journal lines, with their
destinations (R193, R194, Table 6-5). -/
def stagedLines (s : State) : List (Nat × List Byte) :=
  (s.mem.dirty.map fun l => (l, lineBytes s l)) ++ ((xChanged s.ret.xd s.ret.x).map fun i => (execLine0 + i, xBytes s.ret.x i)) ++
    (jChanged s.ret.jd s.ret.j).map fun i => (jLine0 + i, jBytes s.ret.j i)

/-- The tag of a log line (Table 6-5). -/
def logTag (tick : Nat) (l : Nat × List Byte) : Nat := tick % 65536 * 2 ^ 48 + crc16 l.2 * 2 ^ 32 + l.1

/-- Bytes 16#00 to 16#37 of a directory entry (Table 6-4). -/
def Rec.header (r : Rec) : List Byte :=
  leBytes 8 r.tick ++ leBytes 8 r.first ++ leBytes 8 r.edgeTs ++ leBytes 4 r.start ++ leBytes 4 r.nlines ++ padTo 8 r.progid8 ++
    leBytes 4 ((if r.paired then 4 else 0) + (if r.cold then 2 else 0) + (if r.merged then 1 else 0)) ++ padTo 12 []
/-- HCRC: over the header and then the tags in log order (Table 6-4). -/
def Rec.crc (r : Rec) : Nat := crc32 (r.header ++ r.tags.flatMap (leBytes 8))
/-- The HCRC of an entry is valid (R211). -/
def Rec.valid (r : Rec) : Bool := decide (r.hcrc = r.crc)

/-- The mirror stream of a record: its lines with their tags, then the header and the seal, on every lane that is UP (R204, Table 12-1). What
the journal and executive lines say goes beside the seal as a value (Assumption 13). -/
def sendMirror (s : State) (r : Rec) (b : RecBody) : State :=
  let s := ((List.range b.lines.length).zip (b.lines.zip r.tags)).foldl (fun (s : State) (q : Nat × (Nat × List Byte) × Nat) =>
    sendUp s 0x02 (p4 q.1 ++ p8 q.2.2 ++ q.2.1.2)) s
  let s := sendUp s 0x03 (r.header ++ p4 r.crc ++ p4 0xA5)
  let st : RetState := { j := b.j, x := b.x }
  let s := if laneSt s 0 = 2 then emit s (.retState 0 s.now st) else s
  if laneSt s 1 = 2 then emit s (.retState 1 s.now st) else s

/-- The mirror of this module's ticks is wanted: ACTIVE with port S, the partner not declared lost. -/
def mirrors (s : State) : Bool := decide (s.role = .active) && sOn s && reachable s

/-- A set of more than 4,096 lines is not staged: a C3 fault; the set of one tick records 16#3009 too (R203, Assumption 33). -/
def setTooLarge (s : State) (n : Nat) : State :=
  if s.ret.mergeFrom.isSome then raise s 3 0x3001 0 else raise (ev s 0x3009 (p8 s.tick.n ++ p4 n)) 3 0x3009 0

/-- The commit engine reads the pending lines of memory through port F10 (R36, R193). -/
def commitReads (s : State) : State := s.mem.dirty.foldl (fun s l => eccRange s (homePhys l) 64 10) s

/-- The dirty set closes and the commit of tick n begins (R193 to R195, R201, R203). -/
def commitClose (s : State) : State :=
  let s := commitReads s
  let lines := stagedLines s
  let n := lines.length
  if 4096 < n then setTooLarge s n
  else
    let b : RecBody := { lines := lines, j := s.ret.j, x := s.ret.x }
    let r : Rec := {
      tick := s.tick.n, first := s.ret.mergeFrom.getD s.tick.n, edgeTs := s.tick.edgeTs, start := s.ret.logNext, nlines := n
      progid8 := progid8 s, paired := mirrors s, cold := false, merged := s.ret.mergeFrom.isSome, hcrc := 0, st := .open_
      tags := lines.map (logTag s.tick.n), body := some b, mirror := false, began := s.now }
    let s := addRec s r
    let s := { s with mem := { s.mem with dirty := [] } }
    let s := s.updRet fun q => { q with mergeFrom := none, resv := q.resv - 128 }
    let s := maxw (sn s K.RET_CHG_LAST (64 * n)) K.RET_CHG_MAX (64 * n)
    if mirrors s then (sendMirror s r b).updPair fun p => { p with unconf := p.unconf ++ [(r.tick, r.first, s.now)] } else s

/-- Step 3 of R63: the commit of tick n begins, or the commit of the tick before overruns (R203). -/
def commitBegin (s : State) : State :=
  match openRec s with
  | none => commitClose s
  | some r =>
    match s.ret.mergeFrom with
    | some _ => raise s 3 0x3001 0
    | none =>
      let n := (stagedLines s).length
      let s := if 4096 < n then setTooLarge s n else s
      let s := orw (bump (s.updRet fun q => { q with mergeFrom := some s.tick.n, resv := q.resv - 128 }) K.RET_OVR_CNT) K.RET_STATUS 2
      evb s 0x3001 (p8 s.tick.n ++ p4 r.nlines)

/-- Log lines of a record. -/
def recLines (r : Rec) : List Nat := (List.range r.nlines).map fun i => (r.start + i) % 65536

/-- The last log line is written, then HCRC and STATE = SEALED (R195 step 4). A module that is OFF has no engine. -/
def execCommitSealed (at_ : Nat) (s : State) : Answer :=
  let s := setNow s at_
  .next (match openRec s with
    | some r =>
      if r.st = .open_ ∧ s.mode ≠ .off then
        let s := mramRead s fun o => decide (0x800000 ≤ o) && decide (o < 0xC00000) && (recLines r).contains ((o - 0x800000) / 64)
        (setRec s { r with st := .sealed, hcrc := r.crc }).updRet fun q => { q with badLog := q.badLog.filter fun l => !((recLines r).contains l) }
      else s
    | none => s)

/-- Home lines of a record. -/
def RecBody.homeLines (b : RecBody) : List (Nat × List Byte) := b.lines.filter fun l => decide (l.1 < 131072)
/-- Journal lines of a record, by journal line number. -/
def RecBody.jLines (b : RecBody) : List Nat := (b.lines.filter fun l => decide (131072 ≤ l.1)).map fun l => l.1 - jLine0

/-- Write a record's lines to their destinations: home lines, and journal lines in copy A and then in copy B. A line that is written whole is
sound again (R188, R195 step 5). -/
def writeHome (s : State) (b : RecBody) : State :=
  (mramRead s fun o => b.homeLines.any fun l => decide (l.1 = o / 64)).updRet fun q =>
    { (b.homeLines.foldl (fun (q : Ret) (l : Nat × List Byte) => q.homeWrite l.1 l.2) q).putJ b.j b.jLines with xd := b.x }

/-- Steps 5 and 6 of R195 for a SEALED record: its tick is durable (R196). -/
def applyRec (s : State) (r : Rec) (b : RecBody) : State :=
  let s := writeHome (setRec s { r with st := .applied, body := none }) b
  let d := s.now - r.began
  let s := maxw (sn s K.RET_COMMIT_LAST d) K.RET_COMMIT_MAX d
  s.updRet fun q => { q with durTick := r.tick, durTs := r.edgeTs }

/-- This module is ACTIVE and its partner is STANDBY and not declared lost: its confirmations count (R207, R210, R380). -/
def standbyPartner (s : State) : Bool :=
  decide (s.role = .active) && sOn s && !s.pair.lost && decide (s.pair.peer.map Hb.role = some 2)

/-- Confirmations that are still out for a tick or an earlier one; a merged record confirms its ticks together (R207, R210). -/
def unconfirmed (s : State) (tick : Nat) : Bool :=
  standbyPartner s && s.pair.unconf.any fun u => u.2.1 ≤ tick

end Sys2Proof.Machine
end

