-- ==== Sys2Proof/Machine/Wdg.lean ====
section
/-! DEFINITION. Watchdog, restarts and the escalation ladder (R489 to R511). -/

namespace Sys2Proof.Machine

/-- Update the watchdog domain. -/
def State.updWdg (s : State) (f : Wdg → Wdg) : State := { s with wdg := f s.wdg }

/-! ## Stopping the module (R495, R497) -/

/-- Every core halts at its next instruction boundary, and the sequencer stops: no further edge is produced. A tune run ends, and a capture (R348,
R352). -/
def haltAll (s : State) : State :=
  let s := loopsStop s
  lateEvents { s with cores := s.cores.map (fun k => { k with st := .idle })
                      tick := { s.tick with seqOn := false, phase := .none, armed := false } }

/-- Steps 2 and 3 of R495: outputs off, safe bursts, buses off, panel rails, RELEASE; JCTRL STOP goes before (R404). -/
def stopOutputs (s : State) (busy : BusBusy) : State :=
  let s := if joined s then sendJctrl s 4 s.tick.n else s
  sendRelease (panelQuit (busStop (burstAll (dioAllOff s)) busy))

/-- A module that has halted is in RESET; the start path waits for the release. -/
def resetBegin (s : State) : State :=
  { s with mode := .reset
           start := { s.start with step := .reset, kind := 0 }
           power := { s.power with pf := none, dorm := none, dormStopped := false }
           wdg := { s.wdg with running := false, restartDue := false } }

/-- The module halts and enters RESET. -/
def enterReset (s : State) : State := resetBegin (haltAll s)

/-- A restart without a fault cause is due: it is marked in the capture registers (R500). -/
def dueRestart (s : State) (m : RMark) : State := s.updWdg fun w => { w with restartDue := true, mark := m }

/-- The executive, or in CEDAR the provider, stops the outputs and enters RESET (R497, R225, R235). A power-fail sequence runs to its own end
(R240). -/
def execFaultRestart (busy : BusBusy) (s : State) : Answer :=
  .next (if s.wdg.restartDue ∧ s.power.pf.isNone then enterReset (stopOutputs s busy) else s)

/-! ## The watchdog (R489 to R495) -/

/-- The watchdog's own sequence at an expiry or an early service (R495). The sequence lets the commit in progress complete. -/
def wdgExpire (s : State) (early : Bool) (t : Nat) (busy : BusBusy) : State :=
  let code := if early then 0xB002 else 0xB001
  let s := raiseAt s 3 code 0 t
  let s := orw (bump s (if early then K.WDG_EARLY_CNT else K.WDG_EXP_CNT)) K.WDG_STATUS (if early then 2 else 1)
  enterReset (stopOutputs (ev s code (p4 t ++ p8 s.tick.n)) busy)

/-- A service write at the count `t` (R490, R493). -/
def wdgService (s : State) (t : Nat) (busy : BusBusy) : State :=
  if !s.wdg.running then s
  else if t < rn s K.WDG_W_OPEN then wdgExpire s true t busy
  else if rn s K.WDG_W_CLOSE ≤ t then wdgExpire s false t busy
  else
    let s := maxw (sn s K.WDG_T_LAST t) K.WDG_T_MAX t
    let s := if rn s K.WDG_T_MIN = 0 ∨ t < rn s K.WDG_T_MIN then sn s K.WDG_T_MIN t else s
    (sn (sn s K.WDG_W_OPEN s.wdg.nextOpen) K.WDG_W_CLOSE s.wdg.nextClose).updWdg fun w => { w with base := s.now }

/-- The count has reached W_CLOSE at the instant `at_`: the watchdog expires (R490). An oscillator within its tolerance of 5 %
cannot have counted so far sooner. -/
def execWatchdogExpiry (busy : BusBusy) (at_ : Nat) (s : State) : Answer :=
  let s := setNow s at_
  .next (
    if s.wdg.running && decide (10000 * rn s K.WDG_W_CLOSE ≤ 105 * (s.now - s.wdg.base)) then wdgExpire s false (rn s K.WDG_W_CLOSE) busy
    else s)

/-- The conditions of R492 on a window in use. -/
def windowOk (t op cl : Nat) : Bool :=
  decide (op + 3 ≤ 95 * t / 100) && decide ((105 * t + 99) / 100 + 3 ≤ cl) && decide (cl ≤ 16777215)

/-- The window of an image's period, with its replacement (R492). It takes effect with the next accepted service (R493). -/
def setWindow (s : State) (t : Nat) : State :=
  let o := rn s K.WDG_W_OPEN_CFG
  let c := rn s K.WDG_W_CLOSE_CFG
  let op := if o = 0 then t / 2 else o
  let cl := if c = 0 then 2 * t else c
  if windowOk t op cl then s.updWdg fun w => { w with nextOpen := op, nextClose := cl }
  else
    ev (orw (s.updWdg fun w => { w with nextOpen := t / 2, nextClose := 2 * t }) K.WDG_STATUS 0x80) 0xB009
      (p4 o ++ p4 c ++ p4 (t / 2) ++ p4 (2 * t))

/-- The watchdog starts at the first Cedar edge of a start with the Cedar window (R494). -/
def wdgStart (s : State) : State :=
  let s := sn (sn (sn (sn s K.WDG_W_OPEN 200) K.WDG_W_CLOSE 300) K.WDG_T_MIN 0) K.WDG_T_MAX 0
  s.updWdg fun w => { w with running := true, base := s.now, nextOpen := 200, nextClose := 300 }

/-- The Cedar provider services the watchdog at the count `t`, within 1 µs after 247 µs from the Cedar edge (R491). The service that
follows step 9, the last one before the first RUN edge, writes the window of the image (R493). -/
def execCedarWatchdogService (t : Nat) (at_ : Nat) (s : State) : Answer :=
  let s := setNow s at_
  .next (
    if s.mode ≠ .cedar then s
    else
      let s := if s.start.step = .ready ∧ joinGo s then
          match s.prog with
          | some g => { setWindow s g.hdr.period with start := { s.start with served := true } }
          | none => s
        else s
      wdgService s t [])

/-! ## The escalation journal (R500 to R502) -/

/-- Update the escalation journal directly, outside any tick (R191). -/
def State.updEsc (s : State) (f : Esc → Esc) : State :=
  s.updRet fun r => { r.writeJ { r.jd with esc := f r.jd.esc } with j := { r.j with esc := f r.j.esc } }
/-- The escalation journal. -/
abbrev esc (s : State) : Esc := s.ret.j.esc

/-- An entry counts within `win` seconds before now (R501). -/
def escCounts (s : State) (lvl win : Nat) (e : EscEntry) : Bool :=
  decide (e.level = lvl) && decide (e.powerup = (esc s).powerup) && decide (s.now ≤ e.tb + win * 100000000) &&
    (decide ((esc s).clearPu < e.powerup) || (decide (e.powerup = (esc s).clearPu) && decide ((esc s).clearTs < e.tb)))
/-- Restarts of a level that count now. -/
def escCount (s : State) (lvl win : Nat) : Nat :=
  ((esc s).entries.filter fun e => match e with | some e => escCounts s lvl win e | none => false).length

/-- Lines of the escalation journal that fail in both copies (R502). -/
def escBad (s : State) : List Nat :=
  (List.range 16).filter fun i => s.ret.badJourn.contains (jlEsc + i, 0) && s.ret.badJourn.contains (jlEsc + i, 1)

/-- A failed line is written afresh (R502). -/
def escRewrite (s : State) (i : Nat) : State :=
  let s := s.updRet fun r => { r with badJourn := r.badJourn.filter fun b => decide (b.1 ≠ jlEsc + i) }
  let s := ev (orw s K.WDG_STATUS 0x100) 0xB008 (p4 i)
  let maxPu := (esc s).entries.foldl (fun m e => match e with | some e => max m e.powerup | none => m) 0
  if i = 0 then s.updEsc fun e => { e with safe := true, safeCause := 1, next := 0, powerup := maxPu + 1, clearPu := 0, clearTs := 0 }
  else s.updEsc fun e => { e with entries := ((List.range 30).zip e.entries).map fun q => if q.1 / 3 + 1 = i then none else q.2 }

/-- The failed lines of the escalation journal are written afresh where the boot ROM reads the journal (R502). -/
def escCheck (s : State) : State := (escBad s).foldl escRewrite s

/-- An entry of the journal in its ring of 30. -/
def escEnter (s : State) (e : EscEntry) : State :=
  s.updEsc fun j => { j with entries := j.entries.set j.next (some e), next := (j.next + 1) % 30 }

/-! ## The evidence record (R506) -/

/-- The 32 bytes of a core. -/
def coreEvidence (c : CoreCap) : List Byte :=
  p4 c.pc.toNat ++ p4 c.word.toNat ++ p4 c.cyc ++ p4 c.ctx.toNat ++ p4 c.csr.toNat ++ p4 c.depth ++ p4 c.lastFault ++ p4 0
/-- A queued or abandoned fault's head: code, class, unit. -/
def faultHead (f : QFault) : List Byte := leBytes 2 f.code ++ leBytes 1 f.cls ++ leBytes 1 f.unit

/-- The bytes of an evidence entry up to 16#250 (Table 18-5). -/
def evidBytes (s : State) (h : Handling) (level n1 n2 : Nat) (promoted : Bool) : List Byte :=
  let fl := (if (esc s).safe then 8 else 0) + (if 0 < s.wdg.qlost then 4 else 0) + (if s.wdg.abandon.isSome then 2 else 0) + (if promoted then 1 else 0)
  p4 s.ret.j.evSeq ++ leBytes 1 level ++ leBytes 1 (min h.cls 4) ++ leBytes 2 h.code ++ p8 h.ts ++ p8 h.tick ++ p4 (esc s).powerup ++
    leBytes 1 h.state ++ leBytes 1 h.role ++ leBytes 2 fl ++ p4 h.unit ++ p4 h.wdt ++ progid8 s ++ leBytes 2 n1 ++ leBytes 2 n2 ++
    padTo 12 [] ++ padTo 256 (h.cores.flatMap coreEvidence) ++
    padTo 256 (s.wdg.fq.flatMap fun f => faultHead f ++ padTo 4 [] ++ p8 f.ts) ++ leBytes 2 s.wdg.fq.length ++ leBytes 2 s.wdg.qlost ++
    (match s.wdg.abandon with | some f => faultHead f ++ p8 f.ts | none => padTo 12 [])

/-- Write the next entry of the evidence ring directly. -/
def evidWrite (s : State) (b : List Byte) : State :=
  let f := fun (j : Journals) => { j with evid := j.evid.set j.evNext { bytes := b }, evNext := (j.evNext + 1) % 16, evSeq := j.evSeq + 1 }
  s.updRet fun r => { r.writeJ (f r.jd) with j := f r.j }

/-! ## The ladder (R500) -/

/-- Level of the cause before the promotion tests (Table 18-1): a second C4 takes level 3. -/
def ladderEntry (h : Handling) : Nat :=
  let l := if h.cls ≤ 3 then 1 else if h.cls = 4 then 2 else 3
  if l = 1 ∧ h.early then 2 else l

/-- The level chosen, and whether it was promoted. -/
def ladderLevel (s : State) (entry n1 n2 : Nat) : Nat × Bool :=
  let a := if entry = 1 ∧ rn s K.WDG_L1_LIM ≤ n1 then 2 else entry
  let b := if a = 2 ∧ rn s K.WDG_L2_LIM ≤ n2 then 3 else a
  (b, decide (entry < b))

/-- The capture registers have been evaluated. -/
def clearCapture (s : State) : State :=
  s.updWdg fun w => { w with h := none, again := none, fq := [], qlost := 0, abandon := none, mark := .none }

/-- A ladder decision for a cause, from an entry level: journal, evidence, counters and event (R500). Each line of the journal that fails is
counted as full windows, and nothing else of it is counted (R502). -/
def ladderDecide (s : State) (h : Handling) (entry : Nat) : State × Nat :=
  let bad := (escBad s).length
  let s := escCheck s
  let n1 := escCount s 1 (rn s K.WDG_L1_WIN) + bad * rn s K.WDG_L1_LIM
  let n2 := escCount s 2 (rn s K.WDG_L2_WIN) + bad * rn s K.WDG_L2_LIM
  let q := ladderLevel s entry n1 n2
  let s := escEnter s { level := q.1, cls := min h.cls 4, cause := h.code, powerup := (esc s).powerup, tb := s.now }
  let s := if q.1 = 3 then s.updEsc fun e => { e with safe := true, safeCause := 1 } else s
  let s := evidWrite s (evidBytes s h q.1 n1 n2 q.2)
  let s := sn (bump s (K.WDG_L1_CNT + (q.1 - 1))) K.WDG_LAST_CAUSE (q.1 * 65536 + h.code)
  let s := if q.1 = 2 then orw s K.WDG_STATUS 4 else if q.1 = 3 then orw s K.WDG_STATUS 8 else s
  let s := ev s 0xB003 (p4 q.1 ++ p4 h.code ++ p4 (if q.2 then 1 else 0) ++ p4 n1 ++ p4 n2)
  let s := if s.wdg.fq = [] then s else ev s 0xB00A (p4 s.wdg.fq.length)
  (s, q.1)

/-- Level of the restart at a release: the mark of a restart without a fault cause, or the ladder's decision. The cause of a level-1 restart is kept
until its executive has been measured. -/
def restartLevel (s : State) : State × Nat :=
  match s.wdg.mark, s.wdg.h with
  | .none, some h =>
    let q := ladderDecide s h (ladderEntry h)
    ((clearCapture q.1).updWdg fun w => { w with again := if q.2 = 1 then some h else none }, q.2)
  | _, _ => (clearCapture (escCheck s), 2)

/-- A level-1 start whose executive fails its re-measurement: a second decision for its cause, at entry level 2 (R225, R500). -/
def secondDecision (s : State) : State :=
  s.updWdg fun w => { w with restartDue := true, mark := if w.again.isSome then .none else .level2
                             h := match w.h, w.again with
                               | some h, _ => some { h with early := true }
                               | none, some h => some { h with early := true }
                               | none, none => none }

/-- SAFEF of Table 18-3. -/
def safeWord (s : State) : Nat := (if (esc s).safe then 1 else 0) + 256 * (if (esc s).safe then (esc s).safeCause else 0)

end Sys2Proof.Machine
end

