-- ==== Sys2Proof/Machine/Regs.lean ====
section
/-! DEFINITION. The parameter space as the host reaches it (R13 to R21, R539 to R546): what a word reads, when a write is ignored,
rejected or applied, and the clearing of RC words. -/

namespace Sys2Proof.Machine

/-! ## Access codes (R15) -/

/-- The access code R of a word. -/
def WSpec.rd (r : WSpec) : Bool := r.acc.testBit 0
/-- The access code W. -/
def WSpec.wr (r : WSpec) : Bool := r.acc.testBit 1
/-- The access code RC. -/
def WSpec.rc (r : WSpec) : Bool := r.acc.testBit 2
/-- The access code P. -/
def WSpec.priv (r : WSpec) : Bool := r.acc.testBit 3
/-- The access code E. -/
def WSpec.en (r : WSpec) : Bool := r.acc.testBit 4

/-! ## The E rule (R16) -/

/-- The block or instance of an E word is enabled, or its loop is CLOSED or TUNING. -/
def eBlocked (s : State) (k : Nat) : Bool :=
  let b := k / 65536
  let w := k % 65536
  if b = 0x400 then rb s (K.LINKk_ENABLE ((w - 0x100) / 0x80)) 0
  else if b = 0x500 then
    if w = 0 then encIds.any fun i => encOn s i else rb s (K.ENCk_ENABLE ((w - 0x100) / 0x40)) 0
  else if b = 0x600 ∨ b = 0x700 then
    let n := (w - 0x100) / 0x40
    if h : n < 96 then decide (1 < (loopRec s ⟨n, h⟩).state) else false
  else if b = 0x800 then if w < 0x80 then sOn s else rb s K.PAIR_J_ENABLE 0
  else if b = 0x900 then rb s (K.BUSk_ENABLE ((w - 0x400) / 0x400)) 0
  else if b = 0xA00 then dioOn s
  else if b = 0xB00 then rb s K.PANEL_ENABLE 0
  else if b = 0xC00 then rb s K.RTC_ALM_EN ((w - 0x21) / 2)
  else false

/-! ## Ranges (R542 row 4) -/

/-- The value masked to the bits that are not reserved, where its number lies in a range. -/
def chk (mask : Word) (lo hi : Nat) (v : Word) : Option Word :=
  if lo ≤ (v &&& mask).toNat ∧ (v &&& mask).toNat ≤ hi then some (v &&& mask) else none
/-- Any value; reserved bits are dropped. -/
def anyOf (mask : Word) (v : Word) : Option Word := some (v &&& mask)
/-- A value in a range of the whole word. -/
def rng (lo hi : Nat) (v : Word) : Option Word := chk 0xFFFFFFFF lo hi v
/-- A value for which a test holds. -/
def test (mask : Word) (p : Word → Bool) (v : Word) : Option Word := if p (v &&& mask) then some (v &&& mask) else none
/-- A binary32 number that is not negative. -/
def fNonneg (v : Word) : Bool := fle 0 v && ffin v
/-- A binary32 number above zero. -/
def fPos (v : Word) : Bool := flt 0 v && ffin v
/-- A source word as LOOP[n].YSRC: a format, and an offset aligned to its size (Table 10-9). -/
def srcOk (v : Word) : Bool :=
  let fmt := (field v 27 24).toNat
  decide (fmt ≤ 5) && decide ((field v 23 0).toNat % (if fmt < 2 then 2 else 4) = 0)

/-- LINK[k]. -/
def chkLink (o : Nat) (v : Word) : Option Word :=
  if o = 1 then rng 0 32 v else if o = 2 then rng 0 1 v else if o = 3 then chk 3 0 2 v else if o = 4 then rng 2 1000 v
  else if o = 5 ∨ o = 6 then rng 1 255 v else some v

/-- ENC[k]. -/
def chkEnc (s : State) (b o : Nat) (v : Word) : Option Word :=
  if o = 2 then anyOf 1 v else if o = 3 then rng 1 1048576 v else if o = 4 ∨ o = 0xC then rng 0 1 v else if o = 5 ∨ o = 0xD then rng 0 255 v
  else if o = 6 then rng 1 20 v else if o = 9 then rng 10 1000 v
  else if o = 0xA then rng 8 40 v
  else if o = 0xB then rng 1 (min 32 (rn s (b + 0xA))) v
  else if o = 0xE then rng 1 64 v else if o = 0xF then rng 100 100000 v else if o = 0x10 then rng 1000 1000000 v
  else if o = 0x11 then rng 0 8 v else some v

/-- LOOP[n] (Table 10-9, R321). -/
def chkLoop (s : State) (b o : Nat) (v : Word) : Option Word :=
  if o = 2 then (if v.toNat ≤ rn s (b + 3) then none else rng 1 1024 v)
  else if o = 3 then (if rn s (b + 2) ≤ v.toNat then none else some v)
  else if o = 4 then test 0x000F1F03 (fun v => decide ((field v 19 16).toNat ≤ 8) && decide (field v 1 0 ≠ 3)) v
  else if o = 5 then test 0x0FFFFFFF srcOk v
  else if o = 6 then anyOf 0x8FFFFFFF v
  else if o = 9 ∨ o = 0xA ∨ o = 0xB ∨ o = 0xC then test 0xFFFFFFFF (fle 0) v
  else if o = 0xD ∨ o = 0xF then test 0xFFFFFFFF (fun v => fle 0 v && fle v fOne) v
  else if o = 7 ∨ o = 8 ∨ o = 0xE then test 0xFFFFFFFF ffin v
  else if o = 0x17 then rng 1 255 v
  else if o = 0x18 then anyOf 3 v
  else some v

/-- The schedule of TUNE[n] may be switched on (R357). -/
def schedOk (s : State) (b : Nat) : Bool :=
  let n := rn s (b + 0xC)
  ((List.range (n - 1)).all fun i => flt (rw s (b + 0x10 + i)) (rw s (b + 0x11 + i))) &&
    (List.range 8).all fun i => fle 0x3E800000 (rw s (b + 0x18 + i)) && fle (rw s (b + 0x18 + i)) 0x40800000

/-- TUNE[n] (Table 11-7). -/
def chkTune (s : State) (b o : Nat) (v : Word) : Option Word :=
  if o = 0 then test 0xF (fun v => !(v.getLsbD 2) || rb s b 2 || schedOk s b) v
  else if o = 1 then test 0x00FF0F13 (fun v => decide (field v 23 16 ≠ 0) && decide ((field v 1 0).toNat < 2) &&
    decide (5 ≤ (field v 11 8).toNat) && decide ((field v 11 8).toNat ≤ 12)) v
  else if o = 2 ∨ o = 5 then test 0xFFFFFFFF fPos v
  else if o = 3 then rng 64 4194304 v else if o = 4 then rng 1 256 v
  else if o = 6 ∨ o = 0xB ∨ o = 0x24 then test 0xFFFFFFFF fNonneg v
  else if o = 7 then test 0xFFFFFFFF (fun v => fle 0 v && fle v fOne) v
  else if o = 8 then test 0xFFFFFFFF (fun v => fle fOne v && ffin v) v
  else if o = 9 then test 0x0FFFFFFF srcOk v
  else if o = 0xA then anyOf 0x8FFFFFFF v
  else if o = 0xC then rng 2 8 v
  else if 0x10 ≤ o ∧ o < 0x18 then test 0xFFFFFFFF ffin v
  else if 0x18 ≤ o ∧ o < 0x20 then test 0xFFFFFFFF (fun v => fle 0x3E800000 v && fle v 0x40800000) v
  else if o = 0x20 then rng 16 65535 v
  else if o = 0x21 then test 0xFFFFFFFF (fun v => flt fOne v && ffin v) v
  else if o = 0x22 then rng 1 255 v
  else if o = 0x23 then rng 0 65535 v
  else some v

/-- PAIR (Tables 12-9 and 13-7). -/
def chkPair (o : Nat) (v : Word) : Option Word :=
  if o = 1 ∨ o = 0x80 ∨ o = 0x8E then anyOf 1 v else if o = 2 then rng 4 64 v else if o = 0x82 then rng 0 1 v
  else if o = 0x83 then rng 1 255 v else some v

/-- BUS[k] (Table 14-9). -/
def chkBus (o : Nat) (v : Word) : Option Word :=
  if o = 1 then rng 0 1 v
  else if o = 2 then test 0xFFFFFC1F (fun v => decide (field v 17 10 ≠ 0)) v
  else if o = 3 then anyOf 0x00FF1F1F v
  else if o = 4 then anyOf 0x800000FF v
  else if o = 5 then rng 1 64 v else if o = 6 then rng 0 1000 v else if o = 7 then rng 0 255 v
  else if o = 8 ∨ o = 9 then anyOf 1 v
  else if 0x40 ≤ o ∧ o < 0x50 then test 0x13 (fun v => decide (field v 1 0 ≠ 3)) v
  else if 0x50 ≤ o ∧ o < 0x60 then test 0xFF1FF03F (fun v => decide ((field v 30 24).toNat ≤ 95) && decide ((field v 15 12).toNat ≤ 5)) v
  else if 0x60 ≤ o ∧ o < 0x70 then test 0xFFFFFFFF ffin v
  else if 0x80 ≤ o ∧ o < 0xC0 then anyOf 0x3FFFFFFF v
  else if 0xC0 ≤ o ∧ o < 0x100 then anyOf 0x1FFFFFFF v
  else if 0x100 ≤ o ∧ o < 0x140 then anyOf 0xDF v
  else if 0x200 ≤ o ∧ o < 0x280 then test 0xFFFFFFFF (fun v => (List.range 4).all fun i => decide (v.toNat / 2 ^ (8 * i) % 256 ≤ 17)) v
  else some v

/-- DIO (Table 15-4). -/
def chkDio (o : Nat) (v : Word) : Option Word :=
  if o = 2 then anyOf 0x00FFFFFF v else if o = 3 then anyOf 0xFF000000 v else if o = 4 then anyOf 0xFFFF v
  else if o = 5 then test 0xFFFF (fun v => (List.range 8).all fun q => decide (field v (2 * q + 1) (2 * q) ≠ 3)) v
  else if o = 8 then rng 10 10000 v else if o = 9 then rng 0 255 v
  else if 0x20 ≤ o ∧ o < 0x40 then rng 1 4095 v
  else some v

/-- A multiple of 10 in a range. -/
def tens (lo hi : Nat) (v : Word) : Option Word := if v.toNat % 10 = 0 then rng lo hi v else none

/-- PANEL (Tables 16-3 and 16-4). -/
def chkPanel (w : Nat) (v : Word) : Option Word :=
  if w = 1 then anyOf 7 v else if w = 2 then rng 1 16 v else if w = 3 then rng 1 128 v else if w = 4 then rng 50 400 v
  else if w = 5 then rng 20 120 v else if w = 6 then rng 250 10000 v else if w = 7 then rng 0 60000 v
  else if w < 0x40 then anyOf 0xFF7FFF07 v
  else
    let o := (w - 0x40) % 0x20
    if o = 3 then tens 100 200000 v else if o = 4 then tens 100 50000 v else if o = 5 then tens 0 200000 v else if o = 6 then rng 0 15 v
    else if 0x10 ≤ o then rng 0 256 v else some v

/-- RTC (Tables 17-2 and 17-3). -/
def chkRtc (w : Nat) (v : Word) : Option Word :=
  if w < 0x17 then anyOf 0xFFFF v
  else if w = 0x20 then anyOf 3 v
  else if w = 0x21 ∨ w = 0x23 then test 0x471F3F3F (almWordOk false) v
  else if w = 0x22 ∨ w = 0x24 then test 0xF7FF81FF (almWordOk true) v
  else some v

/-- WDG (Table 18-6). -/
def chkWdg (w : Nat) (v : Word) : Option Word :=
  if w = 9 then rng 1 3600 v else if w = 0xA ∨ w = 0xC then rng 1 255 v else if w = 0xB then rng 1 86400 v
  else if w = 0x1D then anyOf 0x3F00 v else some v

/-- One bits contiguous from bit 31. -/
def maskContiguous (v : Word) : Bool := (List.range 33).any fun n => decide (v.toNat = 2 ^ 32 - 2 ^ n)

/-- HOST (Table 20-7, R545). Without a configured address there is no configured subnet. -/
def chkHost (s : State) (w : Nat) (v : Word) : Option Word :=
  if w = 1 then test 0xFFFFFFFF maskContiguous v
  else if w = 2 then test 0xFFFFFFFF (fun v => decide (v = 0) || decide (s.ret.j.ip = 0) || decide (v &&& s.ret.j.mask = s.ret.j.ip &&& s.ret.j.mask)) v
  else if w = 5 then rng 10 3600 v
  else some v

/-- What a write leaves in a W word that is no ENABLE word: none where the value lies outside its range or its chapter refuses it. -/
def wordChk (s : State) (k : Nat) (v : Word) : Option Word :=
  let b := k / 65536
  let w := k % 65536
  if b = 0x400 then chkLink ((w - 0x100) % 0x80) v
  else if b = 0x500 then
    (if w = 0 then (if v.toNat < 4 ∨ v = 0xFF ∨ (v = 0xFE ∧ jMember s = 1) then some v else none)
     else chkEnc s (k - (w - 0x100) % 0x40) ((w - 0x100) % 0x40) v)
  else if b = 0x600 then chkLoop s (k - (w - 0x100) % 0x40) ((w - 0x100) % 0x40) v
  else if b = 0x700 then (if w = 3 then anyOf 0x33FFF v else chkTune s (k - (w - 0x100) % 0x40) ((w - 0x100) % 0x40) v)
  else if b = 0x800 then chkPair w v
  else if b = 0x900 then chkBus ((w - 0x400) % 0x400) v
  else if b = 0xA00 then chkDio w v
  else if b = 0xB00 then chkPanel w v
  else if b = 0xC00 then chkRtc w v
  else if b = 0xD00 then chkWdg w v
  else if b = 0xE00 then (if w = 6 then rng 10 60000 v else if w = 7 then rng 0 64 v else some v)
  else if b = 0xF00 then chkHost s w v
  else if b = 0x1200 then anyOf 0x3FF v
  else some v

/-! ## Writes (R542) -/

/-- An ENABLE word: the write that the subsystem makes of it, and whether it was applied (R542 row 5). -/
def enableWrite (s : State) (k : Nat) (v : Word) : Option (State × Bool) :=
  let b := k / 65536
  let w := k % 65536
  let x := v.getLsbD 0
  if b = 0x400 ∧ 0x100 ≤ w ∧ (w - 0x100) % 0x80 = 0 then
    (if h : (w - 0x100) / 0x80 < 16 then some (linkEnable s ⟨(w - 0x100) / 0x80, h⟩ x) else none)
  else if b = 0x500 ∧ 0x100 ≤ w ∧ (w - 0x100) % 0x40 = 0 then
    (if h : (w - 0x100) / 0x40 < 4 then some (encEnable s ⟨(w - 0x100) / 0x40, h⟩ x) else none)
  else if b = 0x600 ∧ 0x100 ≤ w ∧ (w - 0x100) % 0x40 = 0 then
    (if h : (w - 0x100) / 0x40 < 96 then some (loopEnable s ⟨(w - 0x100) / 0x40, h⟩ x) else none)
  else if b = 0x800 ∧ w = 0 then
    (if x && !(sOn s) && (match s.prog with
        | some g => decide (min 262144 (375 * g.hdr.period / 2) < g.chgmax + loopAllow g + 4096)
        | none => false) then some (cfgRej s 0x800, false)
     else some (sw s k (v &&& 1), true))
  else if b = 0x900 ∧ 0x400 ≤ w ∧ (w - 0x400) % 0x400 = 0 then
    (if h : (w - 0x400) / 0x400 < 4 then some (busEnable s ⟨(w - 0x400) / 0x400, h⟩ x) else none)
  else if b = 0xA00 ∧ w = 0 then some (dioEnable s x)
  else if b = 0xB00 ∧ w = 0 then some (panelEnable s x)
  else none

/-- The enabling rules that name R16 (R320, R389, R430, R468). -/
def enableRuleR16 (s : State) (k : Nat) : Bool :=
  k / 65536 = 0x800 || k / 65536 = 0x900 || k / 65536 = 0xB00 || (k / 65536 = 0x600 && decide (nloop s ≤ (k % 65536 - 0x100) / 0x40))

/-- An applied value takes its place, with what its word makes of it. -/
def applyWord (s : State) (slot : Fin 8) (k : Nat) (v : Word) (sub cyc : Nat) : State :=
  if k = K.RTC_SET_CMD then (if v = 1 then (rtcSet s sub cyc).1 else s)
  else if k = K.EVR_CLEAR then (if v = 1 then evrClear s slot else s)
  else if k = K.EVR_CUR then s.updEvr fun e => { e with cur := e.cur.set slot ((v &&& 0x3FFF8).toNat) slot.isLt }
  else if k = K.HOST_IPADDR then s.updJ 1 fun j => { j with ip := v }
  else if k = K.HOST_NETMASK then s.updJ 1 fun j => { j with mask := v }
  else if k = K.HOST_GATEWAY then s.updJ 1 fun j => { j with gw := v }
  else if k = K.WDG_W_OPEN_CFG ∨ k = K.WDG_W_CLOSE_CFG then
    (if ticking s.mode then setWindow (sw s k v) (periodT s) else sw s k v)
  else if k / 65536 = 0xA00 then dioConfig s fun s => sw s k v
  else sw s k v

/-- One item of a WRITE: 0 ignored, 1 applied, 2 rejected (R542). `who` is the slot that 16#C010 reports, 16#FF for an image's item. -/
def writeItem (s : State) (slot : Fin 8) (who : Nat) (priv : Bool) (k : Nat) (v : Word) (sub cyc : Nat) : State × Nat :=
  match wordSpec k with
  | none => (s, 0)
  | some r =>
    if !r.wr then (s, 0)
    else if r.priv && !priv then (s, 0)
    else if k / 65536 = 0x600 && decide (nloop s ≤ (k % 65536 - 0x100) / 0x40) && !(decide ((k % 65536 - 0x100) % 0x40 = 0) && v.getLsbD 0) then
      (s, 0)
    else if r.en && eBlocked s k then (rejectEvent (cfgRej s r.blk) k who, 2)
    else
      match enableWrite s k v with
      | some q => if q.2 then (q.1, 1) else (if enableRuleR16 s k then rejectEvent q.1 k who else q.1, 2)
      | none =>
        if k / 65536 = 0x500 ∧ 0x100 ≤ k % 65536 ∧ ((k % 65536) % 0x40 = 1 ∨ (k % 65536) % 0x40 = 7) then
          match (encIds[(k % 65536 - 0x100) / 0x40]?) with
          | some i =>
            let q := encModeWrite s i (decide ((k % 65536) % 0x40 = 7)) v
            if q.2 then (q.1, 1) else (rejectEvent q.1 k who, 2)
          | none => (s, 0)
        else
          match wordChk s k v with
          | some v => (applyWord s slot k v sub cyc, 1)
          | none => (rejectEvent (cfgRej s r.blk) k who, 2)

/-! ## Reads (R539) -/

/-- The i-th word of a byte string. -/
def bytesWord (l : List Byte) (i : Nat) : Word := winWord l i
/-- A number as a word. -/
def nw (v : Nat) : Word := BitVec.ofNat 32 v

/-- SYS. -/
def readSys (s : State) (k w : Nat) : Word :=
  let serial := Config.moduleSerial
  if w = 2 then (if Config.moduleGradeE then 1 else 0)
  else if w = 3 then serial.setWidth 32
  else if w = 4 then (serial >>> 32).setWidth 32
  else if w = 5 then Config.moduleMac.setWidth 32
  else if w = 6 then (Config.moduleMac >>> 32).setWidth 32
  else if w = 7 then lo32 s.now
  else if w = 8 then hi32 s.now
  else if 0x10 ≤ w ∧ w < 0x14 then bytesWord (shake256 32 Config.deviceKey) (w - 0x10)
  else if w = 0x20 then nw (modeCode s.mode)
  else if w = 0x21 then nw s.start.reason
  else if w = 0x22 then nw s.start.source
  else if w = 0x23 then nw s.start.kind
  else rw s k

/-- TICK. -/
def readTick (s : State) (k w : Nat) : Word :=
  if w = 0 then nw s.tick.t
  else if w = 1 then nw (window s)
  else if w = 2 then lo32 s.tick.n
  else if w = 3 then hi32 s.tick.n
  else if w = 4 then lo32 s.tick.edgeTs
  else if w = 5 then hi32 s.tick.edgeTs
  else if h : 0x100 ≤ w ∧ (w - 0x100) / 0x20 < 8 then
    let o := (w - 0x100) % 0x20
    match taskList s ⟨(w - 0x100) / 0x20, h.2⟩ with
    | none => if o = 0 ∨ o = 1 ∨ o = 2 ∨ o = 5 then 0 else rw s k
    | some t =>
      if o = 0 then nw t.tasks.length
      else if o = 1 then nw t.frcap
      else if o = 2 then nw t.needMax
      else if o = 5 then nw ((t.slots.map fun e => e.dr * (e.wcet + 16)).sum)
      else rw s k
  else rw s k

/-- EXEC. EXCH_POS stands at the last map position of the retained state while no map is executed (Assumption 125). -/
def readExec (s : State) (k w : Nat) : Word :=
  if w < 4 then (match s.prog with | some g => bytesWord g.progid w | none => 0)
  else if w = 4 then nw s.exch.st
  else if w = 5 then nw s.ret.x.mapEntry
  else if w = 7 then (if s.prog.isSome then nw (migrLines s) else 0)
  else if w = 8 then nw s.ret.x.edits.length
  else if w = 0xB then nw s.ret.j.forces.length
  else rw s k
/-- RET. -/
def readRet (s : State) (k w : Nat) : Word :=
  if w = 0 then (match s.prog with | some g => nw (changeLimit s g.hdr.period) | none => 0)
  else if w = 1 then (match s.prog with | some g => nw g.chgmax | none => 0)
  else if w = 2 then (match s.prog with | some g => nw (loopAllow g) | none => 0)
  else if w = 7 then lo32 s.ret.durTick
  else if w = 8 then hi32 s.ret.durTick
  else rw s k

/-- LOOP. -/
def readLoop (s : State) (k w : Nat) : Word :=
  let mask := fun (i : Nat) (p : Nat → Bool) => nw (maskOf ((List.range 32).filter fun b =>
    if h : 32 * i + b < 96 then decide (32 * i + b < nloop s) && p (loopRec s ⟨32 * i + b, h⟩).state else false))
  if w = 0 then nw (nloop s)
  else if 1 ≤ w ∧ w < 4 then mask (w - 1) fun st => decide (st ≠ 0)
  else if 4 ≤ w ∧ w < 7 then mask (w - 4) fun st => decide (st = 2)
  else if 0x20 ≤ w ∧ w < 0x40 then (match s.prog with | some g => nw ((g.cams[w - 0x20]?.map Cam.nseg).getD 0) | none => 0)
  else if h : 0x100 ≤ w ∧ (w - 0x100) / 0x40 < 96 then
    let n : LoopNo := ⟨(w - 0x100) / 0x40, h.2⟩
    let o := (w - 0x100) % 0x40
    if nloop s ≤ n.val then 0
    else if o = 0 then (if (loopRec s n).state = 0 then 0 else 1)
    else if o = 1 then nw (loopRec s n).state
    else rw s k
  else rw s k

/-- TUNE. -/
def readTune (s : State) (k w : Nat) : Word :=
  let c := s.loop.cap
  if w = 0 then nw c.st
  else if w = 1 then nw c.loop
  else if w = 2 then nw c.taken
  else if 0x40 ≤ w ∧ w < 0x80 then
    let i := (field (rw s K.TUNE_CAP_CUR) 13 0).toNat + (w - 0x40)
    let ch := (c.data.getD (field (rw s K.TUNE_CAP_CUR) 17 16).toNat []).reverse
    if c.taken ≤ i ∨ 16383 < i then 0 else ch.getD i 0
  else rw s k

/-- PAIR. -/
def readPair (s : State) (k w : Nat) : Word :=
  if w = 4 then nw (roleCode (shownRole s))
  else if w = 5 then (match s.pair.peer with | some h => nw h.role | none => 0xFF)
  else if w = 6 then nw s.ret.x.epoch
  else if w = 7 then nw (laneSt s 0 + 4 * laneSt s 1)
  else if w = 9 then nw s.pair.lanes[0].delay
  else if w = 0xA then nw s.pair.lanes[1].delay
  else if w = 0xB then nw s.pair.syncPos
  else if w = 0x14 then
    (match s.pair.leaseX with | some x => if s.role = .active then nw ((x - s.tick.edgeTs) / 100) else 0 | none => 0)
  else if w = 0x81 then nw (jMember s)
  else if w = 0x84 then nw s.join.st
  else if w = 0x85 then nw (laneSt s 2 + 4 * laneSt s 3)
  else if w = 0x87 then BitVec.ofInt 32 s.join.align
  else if w = 0x89 then nw s.pair.lanes[2].delay
  else if w = 0x8A then nw s.pair.lanes[3].delay
  else if w = 0x8B then (match s.prog with | some g => nw (min 65536 (375 * g.hdr.period / 2 - 2048)) | none => 0)
  else rw s k

/-- BUS. -/
def readBus (s : State) (k w : Nat) : Word :=
  if w = 0 then nw (busOffMask s)
  else if h : 0x400 ≤ w ∧ (w - 0x400) / 0x400 < 4 then
    let m : Fin 4 := ⟨(w - 0x400) / 0x400, h.2⟩
    let o := (w - 0x400) % 0x400
    if o = 0xA then nw (busState s m)
    else if o = 0xC then nw (min 255 s.bus[m].tec + 256 * min 255 s.bus[m].rerr)
    else rw s k
  else rw s k

/-- PANEL. -/
def readPanel (s : State) (k w : Nat) : Word :=
  if w = 8 then nw (panelState s)
  else if w = 0xA then nw (panelActive s)
  else if w = 0xB then nw (maskOf (panelJ s).queue)
  else rw s k

/-- WDG. -/
def readWdg (s : State) (k w : Nat) : Word :=
  if w = 0x10 then nw (escCount s 1 (rn s K.WDG_L1_WIN))
  else if w = 0x11 then nw (escCount s 2 (rn s K.WDG_L2_WIN))
  else if w = 0x12 then nw (esc s).powerup
  else if w = 0x13 then nw (safeWord s)
  else if w = 0x1C then nw s.ret.j.evNext
  else if 0x40 ≤ w ∧ w < 0x80 then
    let a := rn s K.WDG_EV_CUR + 4 * (w - 0x40)
    match s.ret.j.evid[a / 1024]? with
    | some e => bytesWord (slice e.bytes (a % 1024) 4) 0
    | none => 0
  else rw s k

/-- EVR. -/
def readEvr (s : State) (slot : Fin 8) (k w : Nat) : Word :=
  let e := s.evr
  if w = 0 then nw ((e.recs.getLast?.map RecIdx.seq).getD 0)
  else if w = 1 then nw ((e.recs.getLast?.map RecIdx.ofs).getD 0)
  else if w = 2 then nw ((e.recs.head?.map RecIdx.seq).getD 0)
  else if w = 3 then nw ((e.recs.head?.map RecIdx.ofs).getD 0)
  else if w = 4 then nw e.recs.length
  else if w = 5 then nw e.cur[slot]
  else if w = 8 then 0
  else if w = 0x10 then nw e.bursts.length
  else if 0x40 ≤ w ∧ w < 0x80 then winWord (evrCopy s slot) (w - 0x40)
  else rw s k

/-- The service address (R524). -/
def svcAddr : Word :=
  let n := Config.moduleSerial.toNat
  nw (169 * 2 ^ 24 + 254 * 2 ^ 16 + (1 + n % 254) * 256 + (1 + n / 254 % 254))

/-- HOST. -/
def readHost (s : State) (k w : Nat) : Word :=
  if w = 0 then s.ret.j.ip
  else if w = 1 then s.ret.j.mask
  else if w = 2 then s.ret.j.gw
  else if w = 3 then svcAddr
  else if w = 6 then nw (maskOf ((List.range 8).filter fun i => (s.ret.j.hdrs.toList.getD i SessHdr.reset).open_))
  else if w = 7 then nw (maskOf ((List.range 8).filter fun i => (s.ret.j.hdrs.toList.getD i SessHdr.reset).priv))
  else if h : 0x20 ≤ w ∧ (w - 0x20) / 8 < 8 then
    let i : Fin 8 := ⟨(w - 0x20) / 8, h.2⟩
    let q := s.ret.j.hdrs[i]
    let v := s.host.sess[i]
    let o := (w - 0x20) % 8
    if o = 0 then (if q.open_ then 1 else 0) + (if q.priv then 0x100 else 0)
    else if o = 1 then q.nonce.setWidth 32
    else if o = 2 then (q.nonce >>> 32).setWidth 32
    else if o = 3 then nw s.ret.jd.hdrs[i].next
    else if o = 4 then nw v.held.length
    else if o = 5 then v.ip
    else if o = 6 then v.port.setWidth 32
    else (if q.open_ then nw ((s.now - v.idleTs) / 100000000) else 0)
  else rw s k

/-- UPD. -/
def readUpd (s : State) (k w : Nat) : Word :=
  let c := s.ret.j.car
  if w = 0 then
    nw (if s.upd.recovering then 5 else match s.upd.op with | .verify _ _ => 3 | _ => if c.state = 3 then 4 else c.state)
  else if w = 1 then nw c.slot
  else if w = 2 then nw c.holder
  else if w = 3 then nw c.length
  else if w = 4 then nw c.erasedTo
  else if w = 5 then nw s.upd.active
  else if w = 6 then nw s.upd.booted
  else if w = 7 then lo32 s.upd.brSeq
  else if w = 8 then hi32 s.upd.brSeq
  else if w = 0xA then nw s.upd.vresult
  else if w = 0x10 then nw s.upd.car.mib
  else if w = 0x11 then (if s.upd.car.mib = 0 then 0 else nw ((s.upd.car.mib * 1048576 - 262144) / 2))
  else if 0x14 ≤ w ∧ w < 0x18 then bytesWord c.vmeas (w - 0x14)
  else rw s k

/-- First 16 bytes of SHAKE256 of an owner key; 0 for an empty slot. -/
def ownerFp (o : Owner) (i : Nat) : Word := if o.enrolled then bytesWord (shake256 32 o.key) i else 0

/-- TRUST. -/
def readTrust (s : State) (k w : Nat) : Word :=
  let mask := fun (p : Owner → Bool) => maskOf ((List.range 4).filter fun i => match s.trust.owners.toList[i]? with | some o => p o | none => false)
  if w = 0 then nw s.trust.rollback
  else if w = 1 then nw (mask Owner.enrolled + 256 * mask Owner.revoked)
  else if w = 2 then (match s.prog with | some g => nw g.hostKeys.length | none => 0)
  else if w = 3 then (match s.prog with | some g => nw g.rollback | none => 0)
  else if 4 ≤ w ∧ w < 8 then bytesWord s.trust.execMeas (w - 4)
  else if 8 ≤ w ∧ w < 0xC then bytesWord s.trust.imgM (w - 8)
  else if 0x10 ≤ w ∧ w < 0x20 then (match s.trust.owners.toList[(w - 0x10) / 4]? with | some o => ownerFp o ((w - 0x10) % 4) | none => 0)
  else if 0x20 ≤ w ∧ w < 0x24 then bytesWord Config.romMeas (w - 0x20)
  else rw s k

/-- POWER. -/
def readPower (s : State) (k w : Nat) : Word :=
  if w = 0 then (if s.power.present then 1 else 0) + (if s.power.m1 then 2 else 0) + (if s.power.m2 then 4 else 0) +
    (if rb s K.POWER_PRESENT 3 then 8 else 0)
  else if w = 0xA then nw s.power.wake
  else if w = 0xB then lo32 s.power.wakeTs
  else if w = 0xC then hi32 s.power.wakeTs
  else rw s k

/-- What a read of a word returns, but for the time fields (R475). -/
def wordValue (s : State) (slot : Fin 8) (k : Nat) : Word :=
  let b := k / 65536
  let w := k % 65536
  if b = 0 then readSys s k w
  else if b = 0x100 then readTick s k w
  else if b = 0x200 then readExec s k w
  else if b = 0x300 then readRet s k w
  else if b = 0x500 then
    (if h : 0x100 ≤ w ∧ (w - 0x100) / 0x40 < 4 then
      let i : Fin 4 := ⟨(w - 0x100) / 0x40, h.2⟩
      if (w - 0x100) % 0x40 = 2 then rw s k ||| (if s.enc.ports[i].vsel24 then 0x100 else 0)
      else if (w - 0x100) % 0x40 = 0x12 then nw (encLead s i)
      else rw s k
     else rw s k)
  else if b = 0x600 then readLoop s k w
  else if b = 0x700 then readTune s k w
  else if b = 0x800 then readPair s k w ||| (if k = K.PAIR_STATUS ∧ s.ret.x.incomplete then 4 else 0)
  else if b = 0x900 then readBus s k w
  else if b = 0xA00 then
    (if w = 0x11 then breaks s
     else if w = 0x12 then chMask fun i => s.dio.do_[i].latched
     else if w = 0x13 then chMask fun i => s.dio.do_[i].openLd
     else rw s k)
  else if b = 0xB00 then readPanel s k w
  else if b = 0xC00 then (if w = 0x17 then 0 else rw s k)
  else if b = 0xD00 then readWdg s k w
  else if b = 0xE00 then readEvr s slot k w
  else if b = 0xF00 then readHost s k w
  else if b = 0x1000 then readUpd s k w
  else if b = 0x1100 then readTrust s k w
  else if b = 0x1200 then readPower s k w
  else rw s k

/-- A session's read of one word: reserved words and, without privilege, P words read 0 (R21, R539); an RC word is cleared of what it
returns (R541) unless `noClr`. -/
def readWord (s : State) (slot : Fin 8) (priv noClr : Bool) (k sub : Nat) : State × Word :=
  match wordSpec k with
  | none => (s, 0)
  | some r =>
    if r.priv && !priv then (s, 0)
    else if K.RTC_SEC_TS_LO ≤ k ∧ k < K.RTC_STATUS then rtcTimeRead s slot (k - K.RTC_SEC_TS_LO) sub
    else
      let v := wordValue s slot k
      (if r.rc && !noClr then clrw s k v else s, v)

end Sys2Proof.Machine
end

