-- ==== Sys2Proof/Machine/Prog.lean ====
section
/-! DEFINITION. Images: the container on the carrier and its verification (R548, R553 to R562), its program sections (R146 to R157, R174),
admission (R153, R186, R202, R399, R556) and the application of its configuration. -/

namespace Sys2Proof.Machine

/-! ## The carrier (R548) -/

/-- Bytes of the carrier; unlisted ones read 16#FF. -/
def carBytes (s : State) (a n : Nat) : List Byte := cellBytes 0xFF s.upd.car.cells a n
/-- Slot size S in bytes. -/
def slotSize (s : State) : Nat := if s.upd.car.mib = 0 then 0 else (s.upd.car.mib * 1048576 - 262144) / 2
/-- First byte of a slot. -/
def slotBase (s : State) (slot : Nat) : Nat := 0x40000 + slot * slotSize s
/-- The carrier is present with a capacity of Table 21-2 (R549). -/
def carrierOk (s : State) : Bool := s.upd.car.mib = 32 || s.upd.car.mib = 64 || s.upd.car.mib = 128 || s.upd.car.mib = 256

/-! ## The container (R553 to R555) -/

/-- A directory entry of a container (Table 21-4). -/
structure SectE where
  id : Nat
  core : Nat
  ofs : Nat
  size : Nat
  meas : List Byte
  deriving DecidableEq, Repr

/-- A little-endian field of a byte string. -/
def fld (b : List Byte) (o n : Nat) : Nat := leNat (slice b o n)
/-- The header of the container in a slot. -/
def contHeader (s : State) (slot : Nat) : List Byte := carBytes s (slotBase s slot) 64
/-- Header and directory. -/
def contHead (s : State) (slot : Nat) : List Byte := carBytes s (slotBase s slot) (64 + 48 * fld (contHeader s slot) 6 2)
/-- The directory. -/
def contDir (s : State) (slot : Nat) : List SectE :=
  let b := contHead s slot
  (List.range (fld b 6 2)).map fun i =>
    let e := slice b (64 + 48 * i) 48
    { id := fld e 0 1, core := fld e 1 1, ofs := fld e 4 4, size := fld e 8 4, meas := slice e 16 32 }
/-- M of a container (R554). -/
def contMeas (s : State) (slot : Nat) : List Byte := shake256 64 (contHead s slot)
/-- LENGTH. -/
def contLength (s : State) (slot : Nat) : Nat := fld (contHeader s slot) 8 4
/-- The bytes of a section. -/
def sectBytes (s : State) (slot : Nat) (e : SectE) : List Byte := carBytes s (slotBase s slot + e.ofs) e.size
/-- The bytes of a section by its code, empty where it is absent. -/
def sectOf (s : State) (slot id : Nat) : List Byte :=
  match (contDir s slot).find? fun e => e.id = id with | some e => sectBytes s slot e | none => []

/-- The section codes of Table 21-5. -/
def sectCodes : List Nat := [0x01, 0x10, 0x11, 0x12, 0x13, 0x14, 0x15, 0x16, 0x20, 0x30, 0x31, 0x32, 0x33, 0x34]
/-- Sections lie at ascending offsets, apart from each other and from the signature block. -/
def placed (lim : Nat) : Nat → List SectE → Bool
  | _, [] => true
  | lo, e :: r => decide (e.ofs % 64 = 0) && decide (lo ≤ e.ofs) && decide (e.ofs + e.size ≤ lim) && placed lim (e.ofs + e.size) r
/-- No code and core appear twice. -/
def onceEach : List SectE → Bool
  | [] => true
  | e :: r => (r.all fun f => !(decide (f.id = e.id) && decide (f.core = e.core))) && onceEach r

/-- Code 1 of Table 21-6. -/
def contFormat (s : State) (slot : Nat) : Bool :=
  let h := contHeader s slot
  let n := fld h 6 2
  let len := fld h 8 4
  let b := contHead s slot
  let d := contDir s slot
  let cores := fun (i : Nat) => ((d.filter fun e => e.id = i).map SectE.core)
  decide (fld h 0 4 = 0x4D494C56) && decide (fld h 4 2 = 0) && decide (fld h 0xD 3 = 0) && decide (fld h 0x14 44 = 0) &&
    decide (2 ≤ n) && decide (n ≤ 64) && decide (len % 8 = 0) && decide (len ≤ slotSize s) && decide (fld h 0xC 1 ≤ 64) &&
    decide (64 + 48 * n + 128 ≤ len) && placed (len - 128) (64 + 48 * n) d && onceEach d &&
    ((List.range n).all fun i => decide (fld (slice b (64 + 48 * i) 48) 2 2 = 0) && decide (fld (slice b (64 + 48 * i) 48) 12 4 = 0)) &&
    (d.all fun e => sectCodes.contains e.id && (if e.id = 0x11 ∨ e.id = 0x12 then decide (e.core < 8) else decide (e.core = 0))) &&
    ([0x01, 0x10, 0x13, 0x14, 0x15].all fun i => d.any fun e => decide (e.id = i)) &&
    decide (maskOf (cores 0x11) = fld (sectOf s slot 0x10) 4 1) && decide (maskOf (cores 0x12) = fld (sectOf s slot 0x10) 4 1)

/-- Code 2: a section's bytes have its MEAS. -/
def measOk (s : State) (slot : Nat) (p : SectE → Bool) : Bool :=
  (contDir s slot).all fun e => !(p e) || decide (shake256 32 (sectBytes s slot e) = e.meas)

/-- Code 3: Borael's signature on EXEC. -/
def fwSigOk (s : State) (slot : Nat) : Bool :=
  let b := sectOf s slot 0x01
  Config.ed448Verify Config.firmwareKey (shake256 64 (b.take (b.length - 114))) (b.drop (b.length - 114))

/-- The owner slot whose key signed the container, enrolled and not revoked (R558). -/
def ownerOf (s : State) (slot : Nat) : Option Nat :=
  let b := carBytes s (slotBase s slot + contLength s slot - 128) 128
  (List.range 4).find? fun i =>
    match s.trust.owners.toList[i]? with
    | some o => o.enrolled && !o.revoked && decide (shake256 8 o.key = b.take 8) && Config.ed448Verify o.key (contMeas s slot) (slice b 8 114)
    | none => false

/-! ## Program sections (R146 to R157, R174) -/

/-- PROGHDR without its directories (Table 5-2). -/
def parseHdr (p : List Byte) : ProgHdr :=
  { period := fld p 0 4, cores := fld p 4 1, inBase := fld p 8 4, inSize := fld p 0xC 4, outBase := fld p 0x10 4, outSize := fld p 0x14 4,
    constBase := fld p 0x18 4, constSize := fld p 0x1C 4, globBase := fld p 0x20 4, globSize := fld p 0x24 4 }
/-- The area directory. -/
def parseAreas (p : List Byte) : List Area :=
  (List.range (fld p 0x28 2)).map fun i =>
    let e := slice p (0x30 + 12 * i) 12
    { code := fld e 0 1, inst := fld e 1 1, dir := fld e 2 1, ofs := fld e 4 4, len := fld e 8 4 }
/-- The exchange directory. -/
def parseXchgs (p : List Byte) : List Xchg :=
  (List.range (fld p 0x2A 2)).map fun i =>
    let e := slice p (0x30 + 12 * fld p 0x28 2 + 12 * i) 12
    { base := fld e 0 4, size := fld e 4 4, writer := fld e 8 1, readers := fld e 9 1 }
/-- A cyclic entry or an event slot (Table 5-5). -/
def parseTask (e : List Byte) : TaskE := { entry := fld e 0 4, inst := fld e 4 2, ph := fld e 6 2, dr := fld e 8 1, wcet := fld e 0xC 4 }
/-- A descriptor. -/
def parseDesc (b : List Byte) (o : Nat) : Dword := BitVec.ofNat 64 (fld b o 8)
/-- A TASKLIST section (Table 5-4). -/
def parseList (core : Nat) (b : List Byte) : TList :=
  { core := core
    tasks := (List.range (fld b 0 1)).map fun i => parseTask (slice b (0x48 + 16 * i) 16)
    slots := (List.range (fld b 1 1)).map fun i => parseTask (slice b (0x48 + 16 * (fld b 0 1 + i)) 16)
    frcap := fld b 2 1, evrec := fld b 4 4, needMax := fld b 8 4, s0 := parseDesc b 0x10
    segs := (List.range 6).map fun i => parseDesc b (0x18 + 8 * i) }
/-- A symbol (Table 5-7). -/
def parseSym (e : List Byte) : Sym :=
  { symid := parseDesc e 0, ty := fld e 0xC 1, cls := fld e 0xD 1, flags := fld e 0xE 2, addr := fld e 0x10 4, core := fld e 0x14 1,
    writers := fld e 0x15 1, count := fld e 0x16 2, stride := fld e 0x18 2, nameOff := fld e 8 4 }
/-- MIGRATE (R174). -/
def parseMigrate (b : List Byte) : Migrate :=
  { from_ := b.take 16, lines := fld b 0x14 4, ibytes := fld b 0x18 4
    entries := (List.range (fld b 0x10 4)).map fun i =>
      let e := slice b (32 + 16 * i) 16
      { kind := fld e 0 1, srcCore := fld e 1 1, dstCore := fld e 2 1, src := fld e 4 4, dst := fld e 8 4, len := fld e 0xC 4 } }
/-- CAMS: table after table (Table 21-5). -/
def parseCams : Nat → List Byte → List Cam
  | 0, _ => []
  | k + 1, b =>
    let n := fld b 0 4
    { nseg := n, coef := (List.range (4 * n)).map fun i => BitVec.ofNat 32 (fld b (4 + 4 * i) 4) } :: parseCams k (b.drop (4 + 16 * n))

/-- PROGID (R147). -/
def parseProgid (s : State) (slot : Nat) : List Byte :=
  let d := contDir s slot
  let ofId := fun (i : Nat) => (List.range 8).flatMap fun c =>
    ((d.filter fun e => decide (e.id = i) && decide (e.core = c)).flatMap fun e => sectBytes s slot e)
  (shake256 32 ([0x10, 0x11, 0x12, 0x13, 0x14, 0x15].flatMap ofId)).take 16

/-- The image in a slot, its sections read. -/
def parseImage (s : State) (slot : Nat) : Image :=
  let d := contDir s slot
  let p := sectOf s slot 0x10
  let join := sectOf s slot 0x34
  let hk := sectOf s slot 0x20
  let words := sectOf s slot 0x30
  let lc := sectOf s slot 0x32
  { hdr := parseHdr p, areas := parseAreas p, xchgs := parseXchgs p
    lists := (d.filter fun e => e.id = 0x12).map fun e => parseList e.core (sectBytes s slot e)
    syms := (List.range (fld p 0x2C 4)).map fun i => parseSym (slice (sectOf s slot 0x14) (32 * i) 32)
    inits := (Config.initRuns (sectOf s slot 0x13)).map fun r => { core := r.1, addr := r.2.1, bytes := r.2.2 }
    code := (d.filter fun e => e.id = 0x11).map fun e => (e.core, sectBytes s slot e)
    migrate := (d.find? fun e => e.id = 0x16).map fun e => parseMigrate (sectBytes s slot e)
    progid := parseProgid s slot, chgmax := fld (contHeader s slot) 0x10 4, rollback := fld (contHeader s slot) 0xC 1
    words := (List.range (words.length / 8)).map fun i =>
      let e := slice words (8 * i) 8
      { blk := BitVec.ofNat 16 (fld e 0 2), word := BitVec.ofNat 16 (fld e 2 2), value := BitVec.ofNat 32 (fld e 4 4) }
    linkSafe := sectOf s slot 0x31
    nloop := fld lc 0 1
    loopKeep := (List.range 96).map fun i => (lc.getD (4 + i) 0).getLsbD 0
    cams := if (sectOf s slot 0x33).isEmpty then [] else parseCams 32 (sectOf s slot 0x33)
    hostKeys := (List.range (fld hk 0 1)).map fun i => slice hk (1 + 57 * i) 57
    member := if join.isEmpty then 0xFF else fld join 0 1
    peerProg := slice join 8 8
    execMeas := ((d.find? fun e => e.id = 0x01).map SectE.meas).getD []
    m := contMeas s slot }

/-! ## Admission (R153) -/

/-- The initial byte at a core-visible address, where an INIT run lists one. -/
def initByte (g : Image) (core a : Nat) : Option Byte :=
  (g.inits.find? fun r => (if a < 0x10000000 then decide (r.core = core) else decide (r.core = 0xFF)) && decide (r.addr ≤ a) &&
    decide (a < r.addr + r.bytes.length)).map fun r => r.bytes.getD (a - r.addr) 0
/-- The descriptor that INIT gives entry `k` of an instance descriptor table. -/
def initDesc (g : Image) (core : Nat) (s0 : Dword) (k : Nat) : Dword :=
  BitVec.ofNat 64 (leNat ((List.range 8).map fun i => (initByte g core (dBase s0 + 8 * k + i)).getD 0))
/-- Entries of an instance descriptor table. -/
def idtSize (t : TList) : Nat := (dLimit t.s0 + 1) / 8

/-- A range meets the part of the shared program area that is not retained (R186). -/
def meetsTop (a n : Nat) : Bool := decide (0 < n) && decide (a < 0x10780000) && decide (0x106C0000 < a + n)
/-- A range lies in the shared program area. -/
def inShared (a n : Nat) : Bool := decide (0x10000000 ≤ a) && decide (a + n ≤ 0x10780000)
/-- A descriptor meets the part that is not retained. -/
def descTop (d : Dword) : Bool := dType d ≠ 0 && meetsTop (dBase d) (dLimit d + 1)
/-- A descriptor of a type covers exactly a range with the given rights. -/
def covers (d : Dword) (ty base size : Nat) (w : Bool) : Bool :=
  decide (dType d = ty) && decide (dBase d = base) && decide (dLimit d + 1 = size) && dR d && decide (dW d = w)

/-- The event sources of Table 5-6. -/
def sourceOk (v : Nat) : Bool :=
  (decide (0x100 ≤ v) && decide (v < 0x200) && decide ((v - 0x100) % 64 < 64)) || (decide (0x218 ≤ v) && decide (v < 0x220)) ||
    (decide (0x300 ≤ v) && decide (v < 0x304)) || decide (v = 0x400) || decide (v = 0x401)

/-- No number appears twice. -/
def distinctNat : List Nat → Bool
  | [] => true
  | a :: r => !(r.contains a) && distinctNat r

/-- The need of a core at a residue (R70). -/
def needAt (t : TList) (r : Nat) : Nat :=
  72 + ((t.tasks.filter fun e => r % 2 ^ e.dr = e.ph).map fun e => e.wcet + 16 + 3 * t.frcap).sum +
    (t.slots.map fun e => e.dr * (e.wcet + 16)).sum

/-- The checks of R153 on one task list. -/
def listOk (g : Image) (t : TList) : Bool :=
  let size := match g.code.find? fun q => q.1 = t.core with | some q => q.2.length | none => 0
  let seg := fun (i : Nat) => t.segs.getD i 0
  let n := idtSize t
  decide (t.tasks.length ≤ 64) && decide (t.slots.length ≤ 8) && decide (t.frcap ≤ 32) && decide (size ≤ 131072) &&
    (t.tasks.all fun e => decide (e.dr ≤ 10) && decide (e.ph < 2 ^ e.dr)) &&
    (t.slots.all fun e => decide (1 ≤ e.dr) && decide (e.dr ≤ 8) && sourceOk e.ph) &&
    ((t.tasks ++ t.slots).all fun e => decide (e.entry < size) && decide (e.entry % 4 = 0) && decide (1 ≤ e.inst) && decide (e.inst < n)) &&
    decide (dType t.s0 = 8) && inX t.s0 && decide (1 ≤ n) && decide (n ≤ 4096) && decide (dLimit t.s0 + 1 = 8 * n) &&
    covers (seg 0) 3 g.hdr.inBase g.hdr.inSize false && covers (seg 1) 4 g.hdr.outBase g.hdr.outSize true &&
    covers (seg 2) 5 g.hdr.constBase g.hdr.constSize false && decide (dType (seg 3) = 1) && decide (dBase (seg 3) = g.hdr.globBase) &&
    decide (dLimit (seg 3) + 1 = g.hdr.globSize) && decide (dType (seg 4) = 6) && decide (dType (seg 5) = 7) &&
    ((t.s0 :: t.segs).all fun d => descOk d && !(descTop d)) &&
    decide (initDesc g t.core t.s0 0 = 0) &&
    ((List.range n).drop 1).all (fun k => descOk (initDesc g t.core t.s0 k) && decide (dType (initDesc g t.core t.s0 k) = 2) &&
      !(descTop (initDesc g t.core t.s0 k))) &&
    decide (t.evrec % 16 = 0) && inShared t.evrec 128 && !(meetsTop t.evrec 128) &&
    (List.range 1024).all fun r => decide (needAt t r ≤ t.needMax) && decide (needAt t r ≤ (g.hdr.period - 5) * 495)

/-- The length that a subsystem's chapter requires of its area; none where there is no such area (R149). `s` holds the configuration of
the image and `g` is its image. -/
def areaLen (s : State) (g : Image) (a : Area) : Option Nat :=
  let inp := decide (a.dir = 0)
  if a.code = 1 ∧ a.inst = 0 then some (if inp then 544 else 8)
  else if a.code = 2 ∧ a.inst < 4 then some (if inp then 48 else 8)
  else if h : a.code = 3 ∧ a.inst < 16 then some (8 + (if inp then 16 else 32) * heads s ⟨a.inst, h.2⟩)
  else if a.code = 4 ∧ a.inst < 4 then some (if inp then 4512 else 1296)
  else if a.code = 5 ∧ a.inst = 0 ∧ g.nloop ≤ 96 then some (if inp then 32 * g.nloop else 16 * g.nloop)
  else if a.code = 6 ∧ a.inst = 0 then some (if inp then 32 else 3104)
  else if a.code = 7 ∧ a.inst = 0 ∧ inp then some 4
  else if a.code = 8 ∧ a.inst = 0 then
    (if a.len % 8 = 0 ∧ (!inp ∨ 16 ≤ a.len) then some a.len else none)
  else none

/-- Two areas of one image overlap, or place one instance twice. -/
def areasClash (a b : Area) : Bool :=
  decide (a.dir = b.dir) && ((decide (a.code = b.code) && decide (a.inst = b.inst)) || (decide (a.ofs < b.ofs + b.len) && decide (b.ofs < a.ofs + a.len)))
/-- No two areas clash. -/
def areasApart : List Area → Bool
  | [] => true
  | a :: r => !(r.any (areasClash a)) && areasApart r

/-- R149 and R150, with the image's configuration in `s`. -/
def dirsOk (s : State) (g : Image) : Bool :=
  decide (g.areas.length ≤ 64) && decide (g.xchgs.length ≤ 64) && areasApart g.areas &&
    (g.areas.all fun a => decide (a.dir < 2) && decide (a.ofs % 8 = 0) && decide (areaLen s g a = some a.len) &&
      decide (a.ofs + a.len ≤ (if a.dir = 0 then g.hdr.inSize else g.hdr.outSize))) &&
    (g.xchgs.all fun x => decide (x.base % 64 = 0) && inShared x.base x.size && !(meetsTop x.base x.size) && decide (x.writer < 8))

/-- XOUT of an image. -/
def xoutLen (g : Image) : Nat := match g.areas.find? fun a => a.code = 8 && a.dir = 1 with | some a => a.len | none => 0

/-- A core field of a map or an INIT run names an area that holds a range. -/
def coreRange (core a n : Nat) : Bool :=
  if core = 0xFF then inShared a n
  else decide (core < 8) && ((decide (0x00100000 ≤ a) && decide (a + n ≤ 0x00110000)) || (decide (0x00200000 ≤ a) && decide (a + n ≤ 0x00210000)))

/-- The checks of R153 and R186 that need no configuration, and R202 and R399. -/
def programOk (s : State) (g : Image) : Bool :=
  let bases := [(g.hdr.inBase, g.hdr.inSize), (g.hdr.outBase, g.hdr.outSize), (g.hdr.constBase, g.hdr.constSize), (g.hdr.globBase, g.hdr.globSize)]
  decide (25 ≤ g.hdr.period) && decide (g.hdr.period ≤ 100000) &&
    (bases.all fun q => decide (q.1 % 64 = 0) && inShared q.1 q.2) &&
    ((bases.take 2).all fun q => !(meetsTop q.1 q.2)) &&
    (g.lists.all (listOk g)) && distinctNat (g.lists.flatMap fun t => t.slots.map TaskE.ph) &&
    (g.inits.all fun r => coreRange r.core r.addr r.bytes.length && !(meetsTop r.addr r.bytes.length)) &&
    decide (1 ≤ g.syms.length) && decide (g.syms.length ≤ 65536) && distinctNat (g.syms.map fun y => y.symid.toNat) &&
    limitOk s g &&
    (decide (g.member = 0xFF) || (decide (g.member < 2) && decide (xoutLen g ≤ min 65536 (375 * g.hdr.period / 2 - 2048))))

/-! ## Configuration (R556) -/

/-- The blocks that a WORDS item may name. -/
def wordsBlocks : List Nat := [0x400, 0x500, 0x600, 0x700, 0x800, 0x900, 0xA00, 0xB00, 0xD00, 0xE00]

/-- Parameter words other than configuration words that a start or an exchange leaves: the configuration words of the blocks that an image sets
return to their reset values; the LOOP and TUNE words are retained and judged apart. -/
def configReset (s : State) : State :=
  { s with par := s.par.filter fun q =>
      match wordSpec q.1 with
      | some r => (decide (q.1 / 65536 = 0x800) && decide (0x80 ≤ q.1 % 65536)) || !(r.wr && ([0x400, 0x500, 0x800, 0x900, 0xA00, 0xB00, 0xE00].contains r.blk))
      | none => false }

/-- The join words, which no restart of level 1 resets, are those of an image that enables the join (R396, R411). -/
def joinWords (s : State) (g : Image) : State :=
  if g.words.any fun i => decide (i.blk.toNat * 65536 + i.word.toNat = K.PAIR_J_ENABLE) then
    { s with par := s.par.filter fun q => !(decide (q.1 / 65536 = 0x800) && decide (0x80 ≤ q.1 % 65536) && (match wordSpec q.1 with | some r => r.wr | none => false)) }
  else s

/-- A configuration word of a loop: a writable word of the LOOP or the TUNE block. -/
def loopCfgWord (k : Nat) : Bool :=
  (decide (k / 65536 = 0x600) || decide (k / 65536 = 0x700)) && (match wordSpec k with | some r => r.wr | none => false)

/-- The configuration words of the LOOP and TUNE blocks return to their reset values; the other retained words stand. -/
def loopWordsReset (s : State) : State := s.updRet fun r => { r with x := { r.x with words := r.x.words.filter fun q => !(loopCfgWord q.1) } }

/-- The WORDS items in item order as a privileged WRITE; `keep` says which LOOP and TUNE items are skipped. False where an item fails
admission. At an exchange (`xchg`) an item that is not applied leaves its word and is recorded. -/
def applyWords (s : State) (words : List WriteItem) (keep : Nat → Bool) (xchg : Bool) : State × Bool :=
  words.foldl (fun (q : State × Bool) (i : WriteItem) =>
    let b := i.blk.toNat
    let w := i.word.toNat
    if !(wordsBlocks.contains b) then (q.1, false)
    else if (b = 0x600 ∨ b = 0x700) ∧ keep ((w - 0x100) / 0x40) then q
    else
      let k := b * 65536 + w
      let r := writeItem q.1 0 0xFF true k i.value 0 0
      let five := (enableWrite q.1 k i.value).isSome && !(eBlocked q.1 k && ((wordSpec k).map WSpec.en).getD false)
      if xchg then (if r.2 = 1 then r.1 else evb r.1 0xD00C (p4 b ++ p4 w), q.2)
      else (r.1, q.2 && (decide (r.2 = 1) || (decide (r.2 = 2) && five)))) (s, true)

/-- The state in which an image's configuration is judged: its words over reset values, with no loop enabled (Table 21-6, code 6). -/
def judged (s : State) (g : Image) : State × Bool :=
  let s := loopWordsReset (configReset { s with prog := some g })
  let s := { s with ret := { s.ret with x := { s.ret.x with loops := s.ret.x.loops.map fun _ => { i := 0, yp := 0, d := 0, p := 0, v := 0, a := 0, uf := 0, st := 0 } } } }
  applyWords s g.words (fun _ => false) false

/-- Code 6 of Table 21-6. -/
def admitOk (s : State) (g : Image) : Bool :=
  programOk s g && (judged s g).2 && dirsOk (judged s g).1 g

/-- The checks of Table 21-6 in order; the first failure. -/
def verifyCode (s : State) (slot : Nat) : Nat :=
  if !(carrierOk s) then 7
  else if !(contFormat s slot) then 1
  else if !(measOk s slot fun _ => true) then 2
  else if !(fwSigOk s slot) then 3
  else if (ownerOf s slot).isNone then 4
  else if fld (contHeader s slot) 0xC 1 < s.trust.rollback then 5
  else if !(admitOk s (parseImage s slot)) then 6
  else 0

/-! ## Placing a program -/

/-- CODE sections go into the instruction banks that `bank` names; the banks are not retained (R38, R110). -/
def placeCode (s : State) (code : List (Nat × List Byte)) (bank : Nat → Bool) : State :=
  code.foldl (fun (s : State) (q : Nat × List Byte) =>
    s.updMem fun m => { m with
      cells := cellWrite 0 (cellFilter (fun a => !(decide (iBase q.1 (bank q.1) ≤ a) && decide (a < iBase q.1 (bank q.1) + 0x20000))) m.cells)
        (iBase q.1 (bank q.1)) q.2 }) s

/-- The home image and the memories of a cold start: zero but for the INIT runs (R213). -/
def initMemory (s : State) (g : Image) : State :=
  g.inits.foldl (fun (s : State) (r : InitRun) =>
    s.updMem fun m => { m with cells := cellWrite 0 m.cells (physOf (if r.core = 0xFF then 0 else r.core) r.addr) r.bytes }) s

/-! ## The migration map (R174, R175, R177) -/

/-- R175 on a map. -/
def mapOk (m : Migrate) : Bool :=
  m.entries.all fun e =>
    decide (1 ≤ e.kind) && decide (e.kind ≤ 4) && coreRange e.dstCore e.dst e.len &&
      (if e.kind = 1 ∨ e.kind = 2 then coreRange e.srcCore e.src e.len else true) &&
      (if e.kind = 2 then decide (e.src % 8 = 0) && decide (e.dst % 8 = 0) && decide (e.len = 32) else true) &&
      (if e.kind = 4 then decide (e.dst % 8 = 0) && decide (e.len = 8) else true) &&
      (if e.kind = 1 ∧ e.srcCore = e.dstCore ∧ e.src < e.dst + e.len ∧ e.dst < e.src + e.len then decide (e.dst < e.src) else true)

/-- Physical address of a map's or a run's address. -/
def mapPhys (core a : Nat) : Nat := physOf (if core = 0xFF then 0 else core) a

/-- The byte that a map entry writes at an offset; none where it writes none there. -/
def mapByte (s : State) (g : Image) (e : MapE) (o : Nat) : Option Byte :=
  if e.kind = 1 then some (cellGet 0 s.mem.cells (mapPhys e.srcCore e.src + o))
  else if e.kind = 2 then (if 8 ≤ o ∧ o < 16 then none else some (cellGet 0 s.mem.cells (mapPhys e.srcCore e.src + o)))
  else if e.kind = 3 then some ((initByte g e.dstCore (e.dst + o)).getD 0)
  else if o = 0 then some (cellGet 0 s.mem.cells (mapPhys e.dstCore e.dst) ||| 4)
  else none

/-- One tick's part of the map: it goes on from the retained position while neither the lines nor the INIT bytes of the tick are spent
(R177). `touched` are the lines written in the tick, `ib` the INIT bytes read; `fuel` bounds the bytes. -/
def mapTick (g : Image) (entries : List MapE) (maxLines maxInit : Nat) : Nat → State → List Nat → Nat → State
  | 0, s, _, _ => s
  | fuel + 1, s, touched, ib =>
    match entries[s.ret.x.mapEntry]? with
    | none => s
    | some e =>
      let o := s.ret.x.mapOfs
      if e.len ≤ o then
        mapTick g entries maxLines maxInit fuel (s.updRet fun r => { r with x := { r.x with mapEntry := r.x.mapEntry + 1, mapOfs := 0 } }) touched ib
      else
        let next := s.updRet fun r => { r with x := { r.x with mapOfs := o + 1 } }
        match mapByte s g e o with
        | none => mapTick g entries maxLines maxInit fuel next touched ib
        | some v =>
          let p := mapPhys e.dstCore e.dst + o
          let line := p / 64
          let ib' := if e.kind = 3 then ib + 1 else ib
          if (!(touched.contains line) && decide (maxLines ≤ touched.length)) || decide (maxInit < ib') then s
          else mapTick g entries maxLines maxInit fuel (writeByte next p v) (if touched.contains line then touched else line :: touched) ib'

/-- Steps that a whole map can take. -/
def mapFuel (entries : List MapE) : Nat := (entries.map fun e => e.len + 1).sum + 1
/-- The map is complete. -/
def mapDone (s : State) (m : Migrate) : Bool := decide (m.entries.length ≤ s.ret.x.mapEntry)

/-- The part of an image's map that a migration tick executes. -/
def mapRun (s : State) (g : Image) : State :=
  match g.migrate with
  | none => s
  | some m => mapTick g m.entries (migrLines s) (100 * periodT s) (mapFuel m.entries) s [] 0

end Sys2Proof.Machine
end

