-- ==== Sys2Proof/Machine/HostCore.lean ====
section
/-! DEFINITION. Sessions, results and responses of the host interface (R208 to R210, R526 to R537): what every request kind shares. -/

namespace Sys2Proof.Machine

/-- Update what is volatile of a session slot. -/
def State.updSess (s : State) (i : Fin 8) (f : Sess → Sess) : State :=
  { s with host := { s.host with sess := s.host.sess.set i (f s.host.sess[i]) i.isLt } }
/-- Update the working copy of a session header. -/
def State.updHdr (s : State) (i : Fin 8) (f : SessHdr → SessHdr) : State :=
  s.updRet fun r => { r with j := { r.j with hdrs := r.j.hdrs.set i (f r.j.hdrs[i]) i.isLt } }

/-- All eight session slots. -/
def slotIds : List (Fin 8) := [0, 1, 2, 3, 4, 5, 6, 7]

/-- Journal lines are written directly, outside any tick (R191, R231, R236). -/
def direct (s : State) : Bool := !(ticking s.mode)
/-- The journal lines that have changed are written directly, to copy A and then to copy B. -/
def jDirect (s : State) : State := if direct s then s.updRet fun r => { r.writeJ r.j with resv := 0 } else s
/-- Tick whose commit holds a change that is made now: Phase O of tick n and later writes belong to tick n + 1 (R63, R194). -/
def commitTick (s : State) : Nat := if s.tick.phase = .o then s.tick.n + 1 else s.tick.n

/-! ## Messages (R526, R527) -/

/-- A BHP message: TYPE, SLOT, NONCE, SEQ, KIND, STATUS and body, with its TAG under a key; no key leaves the TAG zero. -/
def bhpMessage (ty slot : Nat) (nonce : Dword) (seq kind status : Nat) (body : List Byte) (key : Option (List Byte)) : List Byte :=
  let m := [0xB7] ++ leBytes 1 ty ++ leBytes 1 slot ++ [0] ++ leBytes 8 nonce.toNat ++ leBytes 4 seq ++ leBytes 2 kind ++ leBytes 2 status ++
    leBytes 2 body.length ++ leBytes 2 0 ++ body
  m ++ (match key with | some k => kmac256 k [0x42, 0x48, 0x50] m | none => List.replicate 32 0)

/-- A message leaves for an address. -/
def sendBhp (s : State) (ip : Word) (port : Half) (m : List Byte) : State := emit s (.bhp s.now ip port.toNat m)
/-- A NOTICE (Table 20-2). -/
def notice (s : State) (ip : Word) (port : Half) (status : Nat) : State :=
  sendBhp s ip port (bhpMessage 5 0xFF 0 0 0 status [] none)

/-- The response to a request leaves. -/
def sendResponse (s : State) (slot : Fin 8) (r : Resp) (status : Nat) (body : List Byte) : State :=
  let s := sendBhp s r.ip r.port (bhpMessage 4 slot r.nonce r.seq r.kind status body (some r.key))
  if s.host.netWait = some (slot.val, r.seq) then { s with host := { s.host with netWait := none, netDue := true } } else s

/-- A response that takes no place in the order leaves at once (R537): to a request with this header. -/
def sendAtOnce (s : State) (h : ReqHdr) (kind status : Nat) (body : List Byte) : State :=
  sendBhp s h.ip h.port (bhpMessage 4 h.slot h.nonce h.seq kind status body (some s.ret.j.hdrs[h.slot].key))

/-- Responses of a session that are released leave in sequence order (R537). -/
def flushResp (slot : Fin 8) : List Resp → State → State
  | [], s => s.updSess slot fun v => { v with resp := [] }
  | r :: l, s =>
    match r.res with
    | none => s.updSess slot fun v => { v with resp := r :: l }
    | some (st, b) => flushResp slot l (sendResponse s slot r st b)
/-- Release the result of a request. -/
def release (s : State) (slot : Fin 8) (seq status : Nat) (body : List Byte) : State :=
  let s := s.updSess slot fun v => { v with resp := updWhere (fun r => decide (r.seq = seq)) (fun r => { r with res := some (status, body) }) v.resp }
  flushResp slot s.host.sess[slot].resp s

/-! ## Headers and results (R208, R209) -/

/-- Sequence numbers of a session whose request is executable and has no result yet. -/
def unfinishedSeqs (s : State) (slot : Fin 8) : List Nat :=
  ((s.host.ready.filter fun r => r.1 = slot.val).map fun r => r.2.1) ++
    ((s.host.jobs.filter fun r => r.1 = slot.val).map fun r => r.2.1) ++
    ((s.ret.x.edits.filter fun b => b.slot = slot.val).map Batch.seq) ++ ((s.ret.x.changes.filter fun b => b.slot = slot.val).map ForceChg.seq)

/-- NEXT of a session: the first number whose request has no result. -/
def nextOf (s : State) (slot : Fin 8) : Nat := (unfinishedSeqs s slot).foldl min s.host.sess[slot].x

/-- The header line of a session changes; it counts once per session and tick against the reserve (R536). -/
def headerLine (s : State) (slot : Fin 8) : State :=
  if s.ret.acks.any (fun a => decide (a.tick = commitTick s) && decide (a.slot = slot.val)) then s else addJournal s 1

/-- Store a result entry: entry SEQ mod 256 of the session's ring (R208, R209). -/
def storeResult (s : State) (e : ResEntry) : State :=
  s.updRet fun r => { r with j := { r.j with
    results := (r.j.results.filter fun o => !(decide (o.slot = e.slot) && decide (o.seq % 256 = e.seq % 256))) ++ [e] } }

/-- What follows a response: a level-2 restart without a cause (R225, R570). -/
def followAck (s : State) (a : After) : State :=
  match a with
  | .none => s
  | .restart => s.updWdg fun w => { w with restartDue := true, mark := .level2 }

/-- A HELLO_REPLY leaves (R529). -/
def sendReply (s : State) (slot : Fin 8) : State :=
  let h := s.ret.j.hdrs[slot]
  let v := s.host.sess[slot]
  sendBhp s v.ip v.port (bhpMessage 2 slot h.nonce 0 0 0 v.reply (some h.key))

/-- Kind of the acknowledgement that stands for a HELLO_REPLY. -/
def helloKind : Nat := 0

/-- An acknowledgement is released. -/
def releaseAck (s : State) (a : Ack) : State :=
  if h : a.slot < 8 then
    let s := if a.kind = helloKind then sendReply s ⟨a.slot, h⟩ else release s ⟨a.slot, h⟩ a.seq a.status a.data
    followAck s a.after
  else followAck s a.after

/-- The exchange of a join is acknowledged when tick m of both members is durable (R404): the partner's edge m + 4 says so, since its commit
engine ends the record of tick m before its Phase O of tick m + 3 or raises a C3 fault (R203). Assumption 53. -/
def joinHolds (s : State) (a : Ack) : Bool :=
  joined s && s.join.master && decide (a.kind = 0x30) && decide (a.status = stOk) &&
    (match s.join.peer with | some j => decide (j.tick < a.tick + 4) | none => true)

/-- Acknowledgements whose tick is durable, and confirmed where a confirmation is due, are released in order (R210). -/
def releaseAcks (s : State) : State :=
  let ok := fun (a : Ack) => decide (a.tick ≤ s.ret.durTick) && !(unconfirmed s a.tick) && !(joinHolds s a)
  let now := s.ret.acks.takeWhile ok
  now.foldl releaseAck (s.updRet fun r => { r with acks := r.acks.dropWhile ok })

/-- An acknowledgement waits for its tick; with direct writes it is released at once. -/
def addAck (s : State) (a : Ack) : State :=
  if direct s then releaseAck (jDirect s) a else s.updRet fun r => { r with acks := r.acks ++ [a] }

/-- A request has its result. A read-only request leaves it in the volatile store; another one writes its result entry and its
session header, and is answered under R210. `ran` says that it was executed. -/
def finish (s : State) (slot : Fin 8) (seq kind status : Nat) (data : List Byte) (after : After) (ro ran : Bool) : State :=
  let s := if ran then bump s K.HOST_REQ_CNT else s
  let s := { s with host := { s.host with ready := s.host.ready.filter fun r => !(decide (r.1 = slot.val) && decide (r.2.1 = seq)),
                                          jobs := s.host.jobs.filter fun r => !(decide (r.1 = slot.val) && decide (r.2.1 = seq)) } }
  if ro then
    let s := s.updSess slot fun v => { v with store := (v.store ++ [(seq, kind, status, data)]).drop ((v.store.length + 1) - 16) }
    let s := (headerLine s slot).updHdr slot fun h => { h with next := nextOf s slot }
    release (jDirect s) slot seq status data
  else
    let s := addJournal (storeResult s { slot := slot, seq := seq, kind := kind, status := status, tick := commitTick s, data := data.take 44 }) 1
    let s := (headerLine s slot).updHdr slot fun h => { h with next := nextOf s slot }
    addAck s { tick := commitTick s, slot := slot, seq := seq, kind := kind, status := status, data := data.take 44, after := after }

/-- A request stays under way; its result follows. -/
def startJob (s : State) (slot : Fin 8) (seq kind : Nat) : State :=
  { s with host := { s.host with ready := s.host.ready.filter fun r => !(decide (r.1 = slot.val) && decide (r.2.1 = seq)),
                                 jobs := s.host.jobs ++ [(slot.val, seq, kind)] } }

/-- A state-changing request that takes `extra` half lines of its own fits the executive reserve (R536). -/
def workFits (s : State) (slot extra : Nat) : Bool :=
  let hdr := if s.ret.acks.any (fun a => decide (a.tick = commitTick s) && decide (a.slot = slot)) then 0 else 3
  decide (3 + hdr + extra ≤ resvLeft s)

/-- A job gets its result. -/
def finishJob (s : State) (r : Nat × Nat) (status : Nat) (data : List Byte) (after : After) : State :=
  if h : r.1 < 8 then
    match s.host.jobs.find? fun j => decide (j.1 = r.1) && decide (j.2.1 = r.2) with
    | some j => finish s ⟨r.1, h⟩ r.2 j.2.2 status data after false true
    | none => s
  else s

/-- A job has its result; where the executive reserve of the tick is spent, the result waits for a later tick (R201). -/
def endJob (s : State) (r : Nat × Nat) (status : Nat) (data : List Byte) (after : After) : State :=
  if direct s || (s.host.done.isEmpty && workFits s r.1 0) then finishJob s r status data after
  else { s with host := { s.host with done := s.host.done ++ [(r.1, r.2, status, data, after)] } }

/-- Results that wait get their place, in order, while the reserve holds them (R201). -/
def runDone : List (Nat × Nat × Nat × List Byte × After) → State → State
  | [], s => s
  | d :: l, s =>
    if workFits s d.1 0 then
      runDone l (finishJob { s with host := { s.host with done := l } } (d.1, d.2.1) d.2.2.1 d.2.2.2.1 d.2.2.2.2)
    else s

/-! ## Closing (R532, R569) -/

/-- The update is released: HOLDER is freed, erasing stops after the sector in progress (R569). -/
def updRelease (s : State) (reason : Nat) : State :=
  if s.ret.j.car.holder = 0xFF then s
  else
    let slot := s.ret.j.car.slot
    ev (jDirect (s.updJ 1 fun j => { j with car := { j.car with holder := 0xFF } })) 0xD002 (p4 slot ++ p4 reason)

/-- The session of a slot no longer owns a run or a capture (R346, R352). -/
def LoopEng.disown (l : LoopEng) (slot : Fin 8) : LoopEng :=
  let freed := fun (o : Option Nat) => if o = some slot.val then some 8 else o
  { l with run := l.run.map fun r => { r with owner := freed r.owner }, cap := { l.cap with owner := freed l.cap.owner } }

/-- A session closes: its slot is free, its results are discarded, and its waiting requests are never answered (R532, R535). -/
def closeSession (s : State) (slot : Fin 8) (reason : Nat) : State :=
  let held := decide (s.ret.j.car.holder = slot.val)
  let s := (addJournal s 1).updHdr slot fun _ => SessHdr.reset
  let s := s.updRet fun r => { r with j := { r.j with results := r.j.results.filter fun e => decide (e.slot ≠ slot.val) } }
  let gone := fun (r : Option (Nat × Nat)) => if r.map Prod.fst = some slot.val then none else r
  let s := s.updRet fun r => { r with x := { r.x with
    edits := r.x.edits.map fun b => if b.slot = slot.val then { b with slot := 0xFF } else b
    changes := r.x.changes.map fun b => if b.slot = slot.val then { b with slot := 0xFF } else b
    swapReq := if r.x.swapReq.map Prod.fst = some slot.val then none else r.x.swapReq } }
  let s := { s with host := { s.host with ready := s.host.ready.filter (fun r => decide (r.1 ≠ slot.val)),
                                          jobs := s.host.jobs.filter fun r => decide (r.1 ≠ slot.val) }
                    loop := s.loop.disown slot
                    exch := { s.exch with req := gone s.exch.req }, pair := { s.pair with swapReq := gone s.pair.swapReq } }
  let s := s.updRet fun r => { r with j := { r.j with exr := r.j.exr.map fun e => { e with req := gone e.req } } }
  let out := s.ret.acks.filter fun a => decide (a.slot = slot.val)
  let s := s.updSess slot fun v => { v with held := [], store := [], fails := 0, hrand := [], mrand := [], reply := []
                                            resp := v.resp.filter fun r => r.res.isSome || out.any fun a => decide (a.seq = r.seq) }
  let s := s.updRtc fun r => { r with shadow := r.shadow.set slot none slot.isLt }
  let s := if held then updRelease s 4 else s
  ev (jDirect s) 0xC002 (p4 slot ++ p4 reason)

end Sys2Proof.Machine
end

