-- ==== Sys2Proof/Machine/OnLine.lean ====
section
/-! DEFINITION. Library instances, value edits, forces and the on-line exchange (R158 to R181, R341, R556). -/

namespace Sys2Proof.Machine

/-! ## Timers and edge detectors (R158 to R162) -/

/-- A timer instance (Table 5-9). -/
structure TimerI where
  start : Nat
  pt : Nat
  et : Nat
  kind : Nat
  inPrev : Bool
  running : Bool
  q : Bool
  deriving DecidableEq, Repr

/-- A timer instance as its 32 bytes hold it. -/
def TimerI.ofBytes (b : List Byte) : TimerI :=
  let f := leNat (slice b 0x18 4)
  { start := leNat (slice b 0 8), pt := leNat (slice b 8 8), et := leNat (slice b 0x10 8), kind := f / 256 % 4,
    inPrev := f.testBit 2, running := f.testBit 1, q := f.testBit 0 }
/-- The 32 bytes of a timer instance. -/
def TimerI.bytes (t : TimerI) : List Byte :=
  leBytes 8 t.start ++ leBytes 8 t.pt ++ leBytes 8 t.et ++
    leBytes 4 (256 * t.kind + (if t.inPrev then 4 else 0) + (if t.running then 2 else 0) + (if t.q then 1 else 0)) ++ leBytes 4 0

/-- Subtraction modulo 2⁶⁴. -/
def sub64 (a b : Nat) : Nat := (a % 2 ^ 64 + 2 ^ 64 - b % 2 ^ 64) % 2 ^ 64

/-- A running timer's elapsed time against its preset (R159). -/
def TimerI.runs (t : TimerI) (el : Nat) : TimerI :=
  if t.pt ≤ el then { t with q := false, running := false, et := t.pt } else { t with et := el }

/-- One execution of the library timer at the edge timestamp `now` (R159); a reserved KIND changes IN_PREV only. -/
def timerStep (t : TimerI) (now : Nat) (inp : Bool) : TimerI :=
  let el := sub64 now t.start
  let t :=
    if t.kind = 0 then
      if !inp then { t with running := false, q := false, et := 0 }
      else
        let el := if t.running then el else 0
        { t with start := if t.running then t.start else now, running := true, q := decide (t.pt ≤ el), et := min el t.pt }
    else if t.kind = 1 then
      if inp then { t with running := false, q := true, et := 0 }
      else if t.inPrev && t.q then { t with start := now, running := true }.runs 0
      else if t.running then t.runs el
      else t
    else if t.kind = 2 then
      if !t.running && inp && !t.inPrev then { t with start := now, running := true, q := true }.runs 0
      else if t.running then t.runs el
      else if !inp then { t with et := 0 }
      else t
    else t
  { t with inPrev := inp }

/-- An edge-detector instance (Table 5-10). -/
structure EdgeI where
  kind : Nat
  prime : Bool
  q : Bool
  prev : Bool
  deriving DecidableEq, Repr

/-- An edge-detector instance as its 8 bytes hold it. -/
def EdgeI.ofBytes (b : List Byte) : EdgeI :=
  let f := leNat (slice b 0 4)
  { kind := f / 16 % 4, prime := f.testBit 2, q := f.testBit 1, prev := f.testBit 0 }
/-- The 8 bytes of an edge-detector instance. -/
def EdgeI.bytes (e : EdgeI) : List Byte :=
  leBytes 4 (16 * e.kind + (if e.prime then 4 else 0) + (if e.q then 2 else 0) + (if e.prev then 1 else 0)) ++ leBytes 4 0

/-- One execution of the library edge detector (R160). -/
def edgeStep (e : EdgeI) (clk : Bool) : EdgeI :=
  if e.prime then { e with prev := clk, q := false, prime := false }
  else if e.kind = 0 then { e with q := clk && !e.prev, prev := clk }
  else { e with q := !clk && e.prev, prev := clk }

/-- The addresses of every TIMER element of the symbol table. -/
def timerAddrs (s : State) : List Nat :=
  match s.prog with
  | none => []
  | some g => (g.syms.filter fun y => decide (y.ty = 32)).flatMap fun y => (List.range y.count).map fun i => symPhys y i

/-- The timers that run. -/
def runningTimers (s : State) : List Nat := (timerAddrs s).filter fun p => (cellGet 0 s.mem.cells (p + 0x18)).getLsbD 1

/-- START of every running timer moves on by the gap (R162). -/
def rebase (s : State) (gap : Nat) : State :=
  let l := runningTimers s
  let s := l.foldl (fun (s : State) (p : Nat) => writeMem s p (leBytes 8 (readNat s p 8 + gap))) s
  ev (orw s K.EXEC_STATUS 8) 0x1014 (p4 l.length ++ p8 gap)

/-! ## Results of work that a queue holds -/

/-- The result of a request that may have outlived its session. -/
def finishReq (s : State) (slot seq kind status : Nat) (data : List Byte) : State :=
  if h : slot < 8 then (if s.ret.j.hdrs[slot].open_ then finish s ⟨slot, h⟩ seq kind status data .none false true else s) else s

/-! ## Value edits (R163 to R167) -/

/-- Write an element of a symbol. -/
def putElem (s : State) (y : Sym) (i : Nat) (v : Dword) : State :=
  writeMem s (symPhys y i) (symBytes y (cellGet 0 s.mem.cells (symPhys y i)) v)

/-- Why an item fails R164, with the reason of R538; 0 where it satisfies it. -/
def editFail (s : State) (i : EditItem) : Nat :=
  match findSym s i.symid with
  | none => 1
  | some y =>
    if !(y.flags.testBit 0) then 2
    else if i.ty ≠ y.ty then 3
    else if y.count ≤ i.index then 4
    else if (y.ty = 1 ∨ y.ty = 16) ∧ 1 < i.value.toNat % 256 then 5
    else 0

/-- A force names the element of an item. -/
def forceIs (i : EditItem) (f : Force) : Bool := decide (f.symid = i.symid) && decide (f.index = i.index) && decide (f.ty = i.ty)
/-- The element of an item is forced: an element is a symbol and an index (R166, R168). -/
def elemForced (s : State) (i : EditItem) : Bool := s.ret.j.forces.any fun f => decide (f.symid = i.symid) && decide (f.index = i.index)
/-- The FORCED mask of a batch (R166, R538). -/
def forcedMask (s : State) (l : List EditItem) : List Byte :=
  leBytes 8 (maskOf ((List.range l.length).filter fun i => match l[i]? with | some e => elemForced s e | none => false))

/-- No number of a list appears twice. -/
def dedupNat (l : List Nat) : List Nat := l.foldl (fun r x => insertNat x r) []
/-- The distinct lines that a batch writes. -/
def batchLines (s : State) (l : List EditItem) : Nat :=
  (dedupNat (l.filterMap fun i => (findSym s i.symid).map fun y => symPhys y i.index / 64)).length

/-- What the change limit leaves for edit lines, in bytes (R202). -/
def editRoom (s : State) : Nat :=
  match s.prog with
  | none => 0
  | some g => changeLimit s g.hdr.period - 4096 - loopAllow g - g.chgmax

/-- Apply or refuse a batch whole (R164, R165, R202). -/
def applyBatch (s : State) (b : Batch) : State :=
  let mask := forcedMask s b.items
  let fails := b.items.map (editFail s)
  let rej := fun (s : State) => bump s K.EXEC_EDIT_REJ_CNT
  if fails.all (fun r => decide (r = 0)) then
    let n := batchLines s b.items
    if 64 * n ≤ editRoom s then
      let s := b.items.foldl (fun (s : State) (i : EditItem) =>
        match findSym s i.symid with | some y => putElem s y i.index i.value | none => s) s
      let s := bump s K.EXEC_EDIT_CNT
      finishReq { s with tick := { s.tick with edited := true } } b.slot b.seq 0x0003 stOk mask
    else
      finishReq (ev (orw (rej s) K.RET_STATUS 8) 0x3008 (p4 n ++ p4 (editRoom s))) b.slot b.seq 0x0003 stLimit mask
  else
    let i := fails.findIdx fun r => decide (r ≠ 0)
    finishReq (orw (rej s) K.EXEC_STATUS 4) b.slot b.seq 0x0003 stBatch (leBytes 2 i ++ leBytes 2 (fails.getD i 0) ++ mask)

/-- Work of the queues of R165 and R170 is applied: by the module that drives the field, not while a map is executed, and not in the tick m in
which the map is complete (R181). -/
def appliesWork (s : State) : Bool := drives s.role && decide (s.exch.st ≠ 4) && !(decide (s.mode = .held) && s.tick.newprog)

/-- Step 4 of R63: the batch at the head of the queue. -/
def editHead (s : State) : State :=
  match s.ret.x.edits with
  | [] => s
  | b :: r =>
    if appliesWork s && workFits s b.slot 0 then applyBatch (s.updRet fun q => { q with x := { q.x with edits := r } }) b
    else s

/-! ## Forces (R168 to R173) -/

/-- Insert a replay entry in ascending order. -/
def replayInsert (e : Nat × Nat) : List (Nat × Nat) → List (Nat × Nat)
  | [] => [e]
  | a :: r => if e.1 < a.1 then e :: a :: r else a :: replayInsert e r

/-- The lowest free replay entry of a core takes a force. -/
def replayTake (s : State) (c : CoreId) (num : Nat) : Option State :=
  let used := s.cores[c].replay.map Prod.fst
  let cap := match taskList s c with | some t => t.frcap | none => 0
  ((List.range cap).find? fun e => !(used.contains e)).map fun e => s.updCore c fun k => { k with replay := replayInsert (e, num) k.replay }

/-- A force on a CLASS 0 symbol takes an entry on each core in WRITERS; none where a core has no free one (R169). -/
def replayGive (s : State) (y : Sym) (num : Nat) : Option State :=
  if y.cls ≠ 0 then some s
  else
    (coreIds.filter fun (c : CoreId) => y.writers.testBit c.val).foldl (fun (q : Option State) (c : CoreId) => q.bind fun s => replayTake s c num) (some s)

/-- The entries of a force are freed. -/
def replayFree (s : State) (num : Nat) : State :=
  { s with cores := s.cores.map fun k => { k with replay := k.replay.filter fun e => decide (e.2 ≠ num) } }

/-- The lowest free entry of the force table. -/
def forceFree (s : State) : Nat := ((List.range 256).find? fun i => !(s.ret.j.forces.any fun f => decide (f.at_ = i))).getD 255

/-- FORCE_SET: 0, or the reason of R538. -/
def forceSet (s : State) (i : EditItem) : State × Nat :=
  match findSym s i.symid with
  | none => (s, 1)
  | some y =>
    if y.count ≤ i.index then (s, 1)
    else if !(y.flags.testBit 1) then (s, 2)
    else if i.ty ≠ y.ty then (s, 3)
    else if s.ret.j.forces.any (forceIs i) then
      (s.updJ 1 fun j => { j with forces := updWhere (forceIs i) (fun f => { f with value := i.value }) j.forces }, 0)
    else if 256 ≤ s.ret.j.forces.length then (s, 4)
    else
      match replayGive s y s.ret.j.forceNum with
      | none => (s, 5)
      | some s =>
        (s.updJ 1 fun j => { j with forces := j.forces ++ [{ symid := i.symid, index := i.index, ty := i.ty, value := i.value, num := j.forceNum, at_ := forceFree s }],
                                    forceNum := j.forceNum + 1 }, 0)

/-- FORCE_RELEASE: the element keeps its value; a force that the table does not hold is no error (R169, R170). -/
def forceRelease (s : State) (i : EditItem) : State :=
  match s.ret.j.forces.find? (forceIs i) with
  | none => s
  | some f => replayFree (s.updJ 1 fun j => { j with forces := j.forces.filter fun g => !(forceIs i g) }) f.num

/-- The tick record's note that force changes were applied (R605). -/
def forcedNote (s : State) : State := { s with tick := { s.tick with forced := true } }

/-- A force change is applied. A refused one, and a release of a force that the table does not hold, change nothing. -/
def applyForceChg (s : State) (c : ForceChg) : State :=
  if c.set then
    let q := forceSet s c.item
    if q.2 = 0 then finishReq (forcedNote q.1) c.slot c.seq 0x0004 stOk [] else finishReq q.1 c.slot c.seq 0x0004 stForce (leBytes 2 q.2)
  else
    let s := if s.ret.j.forces.any (forceIs c.item) then forcedNote (forceRelease s c.item) else s
    finishReq s c.slot c.seq 0x0005 stOk []

/-- The force changes that wait, in order, while the executive reserve holds them (R170, R536). -/
def forceChanges : List ForceChg → State → State
  | [], s => s
  | c :: r, s =>
    if appliesWork s && workFits s c.slot 3 then
      forceChanges r (applyForceChg (s.updRet fun q => { q with x := { q.x with changes := r } }) c)
    else s

/-- Impose the forces of a class in creation order (Table 5-11). -/
def imposeForces (s : State) (cls : Nat) : State :=
  s.ret.j.forces.foldl (fun (s : State) (f : Force) =>
    match findSym s f.symid with
    | some y => if y.cls = cls then putElem s y f.index f.value else s
    | none => s) s

/-- Why a force is dropped (R173): 1 vanished, 2 type, 3 not forceable, 4 no replay entry. -/
def forceDrop (s : State) (f : Force) : State × Nat :=
  match findSym s f.symid with
  | none => (s, 1)
  | some y =>
    if y.count ≤ f.index then (s, 1)
    else if y.ty ≠ f.ty then (s, 2)
    else if !(y.flags.testBit 1) then (s, 3)
    else match replayGive s y f.num with | none => (s, 4) | some s => (s, 0)

/-- The force table is checked against the symbol table of the running image (R173). -/
def forcesCheck (s : State) : State :=
  let s := { s with cores := s.cores.map fun (k : Core) => { k with replay := [] } }
  s.ret.j.forces.foldl (fun (s : State) (f : Force) =>
    let q := forceDrop s f
    if q.2 = 0 then q.1
    else
      let s := q.1.updJ 1 fun j => { j with forces := j.forces.filter fun g => decide (g.num ≠ f.num) }
      ev (orw (bump s K.EXEC_FORCE_DROP_CNT) K.EXEC_STATUS 1) 0x1013 (p8 f.symid.toNat ++ p4 f.index ++ p4 q.2)) s

/-! ## Leaving RUN -/

/-- The task lists stop: every pending release is dropped, EVT_FLAGS and EVT_PEND are cleared (R65). -/
def dropTasks (s : State) : State :=
  { s with cores := s.cores.map fun (k : Core) =>
      { k with st := .idle, inEvt := false, resume := false, evtFlags := 0, evtPend := 0,
               slots := Vector.replicate 8 { pending := false, count := 0, ts := 0, rel := 0, held := false } } }

/-! ## Exchange (R176 to R181) -/

/-- No exchange. -/
def Exch.idle : Exch :=
  { st := 0, slot := 0xFF, image := none, req := none, pair := false, tickB := 0, tickN := 0, ticks := 0, loaded := false, written := false }
/-- Update the exchange. -/
def State.updExch (s : State) (f : Exch → Exch) : State := { s with exch := f s.exch }
/-- Running PROGID. -/
def progid (s : State) : List Byte := match s.prog with | some g => g.progid | none => padTo 16 []

/-- The slot holds an image verified under R562. -/
def slotVerified (s : State) (slot : Nat) : Bool :=
  decide (s.ret.j.car.state = 3) && decide (s.ret.j.car.slot = slot) && decide (s.ret.j.car.vmeas = (contMeas s slot).take 16)

/-- The map of an image migrates from the running program and passes R175. -/
def migrateOk (s : State) (g : Image) : Bool :=
  match g.migrate with
  | none => false
  | some m => decide (m.from_ = progid s) && mapOk m

/-- R176: the status of an exchange request; OK where it is accepted. In a join the master takes it, and the slot holds the next image of this
member (R404). -/
def exchangeCheck (s : State) (who slot : Nat) : Nat :=
  if s.mode ≠ .run then stState
  else if joined s && !s.join.master && decide (who ≠ 0xFF) then stRole
  else if s.exch.image.isSome then (if s.exch.req.map Prod.fst = some who then stState else stBusy)
  else if slot = s.upd.active ∨ 1 < slot then stCfg
  else if !(slotVerified s slot) then stCfg
  else if !(migrateOk s (parseImage s slot)) || !(admitOk s (parseImage s slot)) then stCfg
  else if joined s && decide ((parseImage s slot).member ≠ jMember s) then stCfg
  else stOk

/-- An exchange begins: its preload runs in spare time. -/
def exchangeStart (s : State) (slot : Nat) (req : Option (Nat × Nat)) (pair : Bool) : State :=
  s.updExch fun _ => { Exch.idle with st := 1, slot := slot, image := some (parseImage s slot), req := req, pair := pair }

/-- The exchange is given up without a record, and its request is answered. -/
def exchangeAbandon (s : State) (status : Nat) : State :=
  let s := match s.exch.req with | some r => endJob s r status [] .none | none => s
  s.updExch fun _ => Exch.idle

/-- Phase O of tick b: the exchange record enters the journal (R178). -/
def exchangePrepare (s : State) : State :=
  match s.exch.image with
  | some g =>
    if s.exch.st = 1 ∧ s.exch.loaded ∧ !s.exch.pair ∧ s.mode = .run then
      let s := s.updJ 1 fun j => { j with exr := some { slot := s.exch.slot, progid := g.progid, req := s.exch.req } }
      let s := (s.updX 1 fun x => { x with mapEntry := 0, mapOfs := 0 }).updExch fun e => { e with st := 2, tickB := s.tick.n }
      ev s 0x1010 (progid s ++ g.progid ++ p8 s.tick.n)
    else s
  | none => s

/-- The exchange record is durable: the activation write begins in spare time, once the carrier is free (R178). -/
def exchangeActivate (s : State) : State :=
  if s.exch.st = 2 ∧ s.exch.tickB ≤ s.ret.durTick ∧ s.upd.op = .none ∧ !s.upd.recovering then
    { s with exch := { s.exch with st := 3 }, upd := { s.upd with op := .activate none s.exch.slot 0 true 1 } }
  else s

/-- The loops at the completion of an exchange (R341): `old` is NLOOP of the old image. -/
def exchangeLoops (s : State) (g : Image) : State :=
  let keep := fun (n : Nat) => g.loopKeep.getD n false
  let s := s.updRet fun r => { r with x := { r.x with words := r.x.words.filter fun q =>
    !(loopCfgWord q.1 && decide (0x100 ≤ q.1 % 65536) && !(keep ((q.1 % 65536 - 0x100) / 0x40))) } }
  loopIds.foldl (fun (s : State) (n : LoopNo) =>
    if keep n.val then
      if nloop s ≤ n.val then ev (s.updLoop n fun q => q.leaveTuning.setState 0) 0x5006 (p4 n ++ p4 9)
      else if loopCfgFail s n ≠ 0 then ev (s.updLoop n fun q => q.leaveTuning.setState 0) 0x5006 (p4 n ++ p4 (loopCfgFail s n))
      else s
    else s.updLoop n fun q => q.leaveTuning.setState 0) s

/-- The new image takes the place of the old one (R178, R556): task lists, banks, forces, words. A start that resumes an exchange has put
the new CODE into the active banks, and they stay (R180). -/
def exchangeInstall (s : State) (g : Image) : State :=
  let s := { s with prog := some g, trust := { s.trust with imgM := g.m, signer := ownerOf s s.exch.slot } }
  let s := s.updMem fun m => { m with bank := if s.exch.loaded then m.bank.map (!·) else m.bank }
  let s := forcesCheck s
  let s := exchangeLoops s g
  linkRecheck (applyWords s g.words (fun n => g.loopKeep.getD n false) true).1

/-- The exchange record is cleared and its request gets its result; the new period takes effect at the next edge. -/
def exchangeClose (s : State) : State :=
  let req := s.ret.j.exr.bind ExRec.req
  let s := s.updJ 1 fun j => { j with exr := none }
  let s := { s with exch := { Exch.idle with ticks := s.exch.ticks, tickB := s.tick.n, written := true }, tick := { s.tick with newprog := true } }
  match req with | some r => finishReq s r.1 r.2 0x0030 stOk [] | none => s

/-- This member's map is complete: a member of a join waits for the other one (R404). -/
def mapComplete (s : State) (g : Image) : State :=
  if joined s && !s.join.peerMapDone then
    if s.join.mapDone then s else (sendJctrl s 3 s.tick.n).updJoin fun j => { j with mapDone := true }
  else
    let s := if joined s && !s.join.mapDone then sendJctrl s 3 s.tick.n else s
    exchangeClose (exchangeInstall (s.updJoin fun j => { j with mapDone := false, peerMapDone := false }) g)

/-- A migration tick: the next part of the map, and in Phase O of tick m the new program (R177, R178). -/
def migrationTick (s : State) (initFail : Bool) : State :=
  match s.exch.image with
  | none => s
  | some g =>
    if s.exch.st ≠ 4 then s
    else if initFail then raise { s with free := s.free + 1 } 3 ((Config.fresh64 s.free).toNat % 65536) 0
    else
      let s := mapRun (s.updExch fun e => { e with ticks := e.ticks + 1 }) g
      let s := s.updX 1 id
      match g.migrate with
      | none => s
      | some m => if mapDone s m then mapComplete s g else s

/-- The commit of tick m is durable: the exchange is complete (R178). -/
def exchangeReport (s : State) : State :=
  if s.exch.st = 0 ∧ s.exch.written ∧ s.exch.tickB ≤ s.ret.durTick then
    ev ((sn s K.EXEC_EXCH_TICKS s.exch.ticks).updExch fun e => { e with written := false }) 0x1011 (progid s ++ p4 s.exch.ticks ++ p8 s.exch.tickB)
  else s

/-- The edges of an exchange: tick n is the first to begin after the activation write, and the master of a join announces it (R404); the module is in HELD from edge n + 1. -/
def exchangeEdge (s : State) : State :=
  if s.exch.st ≠ 3 ∨ !s.exch.written ∨ s.mode ≠ .run then s
  else if s.exch.tickN = 0 then
    let s := s.updExch fun e => { e with tickN := s.tick.n }
    if joined s && s.join.master then sendJctrl s 2 s.tick.n else s
  else
    let s := dropTasks (loopsGap s false false)
    { s with exch := { s.exch with st := 4, ticks := 0 }, mode := .held }

end Sys2Proof.Machine
end

