-- ==== Sys2Proof/Machine/Pair.lean ====
section
/-! DEFINITION. The Onyx pair: lanes, lease and Pearl, mirror, resync, swap and exchange through the standby (R362 to R391). -/

namespace Sys2Proof.Machine

/-! ## Lanes (R363, R366, R374, R392) -/

/-- Update a lane. -/
def State.updLane (s : State) (l : Fin 4) (f : Lane → Lane) : State :=
  s.updPair fun p => { p with lanes := p.lanes.set l (f p.lanes[l]) l.isLt }

/-- A lane takes a state below UP; one that leaves UP is counted and recorded (R366, R413). -/
def laneLeave (s : State) (l : Fin 4) (st : Nat) : State :=
  let was := laneSt s l
  let s := s.updLane l fun x => { x with st := st }
  if was ≠ 2 then s
  else
    let s :=
      if l = 0 then bump (orw s K.PAIR_STATUS 1) K.PAIR_LOSS_A_CNT
      else if l = 1 then bump (orw s K.PAIR_STATUS 2) K.PAIR_LOSS_B_CNT
      else orw s K.PAIR_J_STATUS 1
    ev s 0x6001 (p4 l.val ++ p4 st)

/-- An intact heartbeat keeps a lane UP; `delay` is what the unit measures, in ns. -/
def laneBeat (s : State) (l : Fin 4) (delay : Nat) : State :=
  let was := laneSt s l
  let s := s.updLane l fun _ => { lock := true, st := 2, missed := 0, delay := delay }
  if was = 2 then s else ev s 0x6002 (p4 l.val)

/-- A packet is discarded (R363, R393). -/
def pktDiscard (s : State) : State := bump s K.PAIR_PKT_ERR_CNT
/-- The pairing unit works. -/
def pairUnitOn (s : State) : Bool := !(s.mode = .off || s.mode = .reset || s.mode = .dormant)
/-- Port S takes packets. -/
def sReceives (s : State) : Bool := pairUnitOn s && sOn s
/-- Lane number of port S. -/
def sLane (l : Fin 2) : Fin 4 := ⟨l.val, by omega⟩
/-- Both lanes of port S are NOSIG. -/
def sDark (s : State) : Bool := decide (laneSt s 0 = 0) && decide (laneSt s 1 = 0)

/-! ## The partner -/

/-- The exchange through the standby ends without a swap, and its request is answered with `status` (R388). -/
def xpairEnd (s : State) (status : Nat) : State :=
  if !s.pair.xpair || s.role ≠ .active then s
  else
    let s := match s.exch.req with | some r => endJob s r status [] .none | none => s
    evFree (sn ((s.updPair fun p => { p with xpair := false }).updExch fun _ => Exch.idle) K.PAIR_SWAP_STATE 0) 0x6010 [] []

/-- The swap is abandoned: the module keeps the Pearl, and the request is answered with ROLE (R386). -/
def swapAbandon (s : State) : State :=
  match s.pair.swap with
  | none => s
  | some _ =>
    let s := (s.updPair fun p => { p with swap := none, swapReq := none }).updX 1 fun x => { x with swapReq := none }
    let s := sn s K.PAIR_SWAP_STATE 0
    match s.pair.swapReq with | some r => endJob s r stRole [] .none | none => s

/-- The partner is declared lost: acknowledgements follow local durability (R207, R374, R379). -/
def declareLost (s : State) : State :=
  if s.pair.lost || s.role ≠ .active then s
  else
    let s := orw (s.updPair fun p => { p with lost := true, lostTick := s.tick.n, unconf := [], syncOn := false, syncPos := 0 }) K.PAIR_STATUS 8
    let s := evFree s 0x6005 [] (p8 s.tick.n)
    releaseAcks (xpairEnd (swapAbandon s) stRole)

/-- The partner of an ACTIVE module no longer answers on any lane (R379). -/
def partnerGone (s : State) : State :=
  if s.role = .active ∧ s.pair.peer.isSome ∧ !(reachable s) ∧ (s.pair.peer.map Hb.role = some 2 ∨ s.pair.syncOn) then declareLost s else s

/-- Both lanes are NOSIG at a holder of the Pearl (R374): it holds the Pearl without a lease until a heartbeat is acknowledged again. -/
def unilateralCheck (s : State) : State :=
  if s.role = .active ∧ sOn s ∧ sDark s ∧ !s.pair.unilateral then
    declareLost (orw (s.updPair fun p => { p with unilateral := true, leaseX := none }) K.PAIR_STATUS 0x40)
  else s

/-- A module becomes SYNCING: nothing of the program runs, and a swap that was announced does not come (R386). -/
def becomeSyncing (s : State) : State :=
  let s := dropTasks (loopsStop s)
  let s := if s.pair.swap.isSome then sn (s.updPair fun p => { p with swap := none, swapReq := none }) K.PAIR_SWAP_STATE 0 else s
  { s with role := .syncing, pair := { s.pair with entitled := none } }

/-- A member of a quad that is entitled, and has not taken the Pearl yet, can no longer reach its J partner (R408): the member missing is
recorded. -/
def quadAlone (s : State) : State :=
  if inQuad s && s.pair.entitled.isSome && !(jReachable s) then
    becomeSyncing (ev s 0x6018 (p4 (1 - jMember s)))
  else s

/-- A lane has had no symbol lock for 10 µs (R366, R374). -/
def execLaneNosig (lane : Fin 4) (at_ : Nat) (s : State) : Answer :=
  let s := setNow s at_
  .next (
    if s.mode = .off then s
    else
      let s := (laneLeave s lane 0).updLane lane fun x => { x with lock := false }
      if !(pairUnitOn s) then s
      else if lane.val < 2 then unilateralCheck (partnerGone s) else quadAlone s)

/-- A lane gains symbol lock (R366): without a heartbeat yet it is SILENT. -/
def execLaneSymbolLock (lane : Fin 4) (at_ : Nat) (s : State) : Answer :=
  let s := setNow s at_
  .next (s.updLane lane fun x => { x with lock := true, st := if x.st = 0 then 1 else x.st })

/-- The lanes of both ports at an edge: no intact heartbeat in 3 consecutive ticks makes a lane SILENT (R366, R392). -/
def lanesEdge (s : State) : State :=
  let one := fun (s : State) (l : Fin 4) =>
    let s := s.updLane l fun x => { x with missed := x.missed + 1 }
    if laneSt s l = 2 ∧ 3 < s.pair.lanes[l].missed then laneLeave s l 1 else s
  quadAlone (one (one (unilateralCheck (partnerGone (one (one s 0) 1))) 2) 3)

/-! ## Alignment (R367, R397) -/

/-- The edge and its tick number follow a partner's edge `tick`, which lies at `p` on this timebase; a correction is at most `lim` units, and
only the first heartbeat of a tick makes one: the copy of the other lane says the same. -/
def alignTo (s : State) (p : Int) (tick : Nat) (lim : Nat) : State :=
  let tu : Int := 100 * s.tick.t
  let d := p - s.tick.edgeTs
  let m := (d + tu / 2) / tu
  let corr := if s.tick.aligned then 0 else clampI (-(lim : Int)) lim (d - m * tu)
  { s with tick := { s.tick with e0 := (s.tick.e0 + corr).toNat, n := (tick - m).toNat, aligned := true } }

/-! ## The Pearl (R371 to R378) -/

/-- The epoch that taking the Pearl gives (R377). -/
def newEpoch (s : State) : Nat := max s.ret.x.epoch s.pair.peerEpoch + 1

/-- The Pearl is taken: epoch, counters and event; none where the epoch is exhausted (R376, R377). Causes: 1 START, 2 RELEASE, 3 LEASE,
4 WITNESS, 5 SWAP. -/
def takePearl (s : State) (cause : Nat) : Option State :=
  if 0xFFFFFFFF < newEpoch s then none
  else
    let s := orw (s.updX 1 fun x => { x with epoch := newEpoch s }) K.PAIR_STATUS 0x10
    let s := if cause = 1 then s else bump s K.PAIR_TAKEOVER_CNT
    some (ev s 0x6003 (p4 cause ++ p4 s.ret.x.epoch ++ p8 (s.ret.durTick + 1)))

/-- The epoch is exhausted: the Pearl is not taken (R377). -/
def epochExhausted (s : State) : State :=
  ev (s.updPair fun p => { p with entitled := none }) 0x6009 (p4 s.ret.x.epoch)

/-- Volatile state of the sessions at a start or a takeover: execution continues at e (R535). -/
def hostAnew (s : State) : State :=
  { s with host := { s.host with
      sess := Vector.ofFn fun (i : Fin 8) => { Sess.reset with x := s.ret.j.hdrs[i].next, idleTs := s.now }
      ready := [], jobs := [], done := [], hellos := [], garp := 0, netWait := none, netDue := false } }

/-- Three announcements of the shared address begin at the first edge as ACTIVE (R525). -/
def announce (s : State) : State :=
  if rn s K.PAIR_HOSTADDR = 0 then s else { s with host := { s.host with garp := 3, garpAt := s.now } }

/-- The new program of an exchange through the standby takes the place of the old one at the takeover (R388). -/
def xpairInstall (s : State) : State :=
  match s.pair.xpair, s.exch.image with
  | true, some g =>
    let s := exchangeInstall s g
    let s := sn ((s.updPair fun p => { p with xpair := false }).updExch fun _ => Exch.idle) K.PAIR_SWAP_STATE 0
    ev { s with tick := { s.tick with newprog := true } } 0x1011 (progid s ++ p4 0 ++ p8 s.tick.n)
  | _, _ => s

/-- The request of a swap is answered by the module that took the Pearl (R386). -/
def swapAnswer (s : State) : State :=
  match s.ret.x.swapReq with
  | none => s
  | some r => finishReq (s.updX 1 fun x => { x with swapReq := none }) r.1 r.2.1 r.2.2 stOk []

/-- First edge as ACTIVE of a module that took the Pearl (R376): `s` stands at the edge, before its tick number is set. The timers are those of
the program that runs from now on, and are rebased unless the module takes the Pearl at its own cold start (R162). -/
def becomeActive (s : State) : State :=
  let start := decide (s.pair.entitled.map Prod.fst = some 1)
  let fresh := s.tick.lastCold && start
  let s := s.updRet fun r =>
    { r with dir := if (openRec s).isSome then r.dir.dropLast else r.dir, j := r.jd, x := { r.xd with epoch := r.x.epoch, incomplete := false } }
  let s := { s with role := .active
                    tick := { s.tick with n := s.ret.durTick + 1, first := true, takeover := true }
                    pair := { s.pair with entitled := none, gate := false, leaseX := none, sealq := [], rx := [], unconf := [], lost := false,
                                          syncOn := false, syncPos := 0, swap := none, relDue := false } }
  let s := xpairInstall s
  let s := if fresh then s else rebase s (sub64 s.tick.edgeTs s.ret.durTs)
  let s := loopsSnapshot (loopsGap s false true)
  let s := if start then panelAtStart s else panelTakeover s
  announce (swapAnswer (hostAnew (forcesCheck s)))

/-- The lease has expired at an edge (R371). -/
def leaseDue (s : State) (edge : Nat) : Bool :=
  decide (s.role = .active) && sOn s && !s.pair.gate && !(sDark s) && (match s.pair.leaseX with | some x => decide (x ≤ edge) | none => false)

/-- The Pearl gate closes for the edge of tick `n`, and the module acts under row 1 or row 5 of Table 12-4 (R371). -/
def leaseExpire (s : State) (busy : BusBusy) (n : Nat) : State :=
  let s := (xpairEnd (swapAbandon s) stRole).updPair fun p => { p with gate := true, leaseX := none }
  let s := panelQuit (busGate (linksSilent (dioAllOff s)) busy)
  let s := ev (orw s K.PAIR_STATUS 0x20) 0x6004 (p8 n)
  let s := if s.pair.peer.map Hb.role = some 1 then s else orw s K.PAIR_STATUS 0x80
  becomeSyncing s

/-- The lease expires at the next edge (R371). -/
def execLeaseExpiry (busy : BusBusy) (s : State) : Answer :=
  .next (if s.tick.seqOn && leaseDue s (nextEdge s) then leaseExpire s busy (s.tick.n + 1) else s)

/-- LEASE + 2 periods, in units. -/
def leaseSpan (s : State) : Nat := (rn s K.PAIR_LEASE + 2) * periodT s * 100

/-- Number of the first edge at or after an instant. -/
def edgeAfter (s : State) (t : Nat) : Nat :=
  let tu := max 1 (100 * s.tick.t)
  s.tick.n + 1 + (t - nextEdge s + tu - 1) / tu

/-- The module is entitled to the Pearl from an instant on; in a quad its J partner hears of it (R408). -/
def entitle (s : State) (cause t : Nat) : State :=
  if s.pair.entitled.isSome || s.pair.gaveUp then s
  else
    let s := s.updPair fun p => { p with entitled := some (cause, t) }
    if inQuad s then sendJctrl (s.updJoin fun j => { j with ent := some s.now, qwait := false }) 5 (edgeAfter s t) else s

/-- The lease deadline of a standby has been reached at the present instant (R372). -/
def leaseDeadline (s : State) : State :=
  let dl := s.pair.rcvTs + leaseSpan s
  if s.role ≠ .standby || s.pair.entitled.isSome || s.now < dl || reachable s then s
  else if !(sDark s) then entitle s 3 s.now
  else
    match s.pair.witness with
    | some w =>
      if dl ≤ w.1 + rn s K.PAIR_LEASE * periodT s * 100 then
        ev (orw (becomeSyncing s) K.PAIR_STATUS 0x80) 0x6007 (p4 w.2)
      else entitle s 4 s.now
    | none => entitle s 4 s.now

/-- The deadline as an event: outside a quad the Pearl is taken at once, before the first edge as ACTIVE (R372, R376). -/
def execLeaseDeadline (at_ : Nat) (s : State) : Answer :=
  let s := setNow s at_
  .next (
    if !(sReceives s && decide (s.mode = .run)) then s
    else
      let had := s.pair.entitled.isSome
      let s := leaseDeadline s
      match s.pair.entitled with
      | some e =>
        if had || inQuad s then s
        else
          match takePearl s e.1 with
          | some s => { s with tick := { s.tick with takeover := true } }
          | none => epochExhausted s
      | none => s)

/-- Entitled at this edge, alone or, in a quad, at a joined edge together with the J partner (R375, R408). -/
def takeReady (s : State) (edge n : Nat) : Bool :=
  match s.pair.entitled with
  | none => false
  | some e =>
    decide (e.2 ≤ edge) && (decide (e.1 = 1) || decide (s.role = .standby)) &&
      (!(inQuad s) || joined s && (match s.join.peerEnt with | some m => decide (m ≤ n) | none => false))

/-- The Pearl at an edge: the take, if it is due. -/
def pearlEdge (s : State) : State :=
  match s.pair.entitled with
  | none => s
  | some e =>
    if !(takeReady s s.tick.edgeTs s.tick.n) then s
    else if s.tick.takeover then becomeActive s
    else match takePearl s e.1 with
      | some s => becomeActive s
      | none => epochExhausted s

/-- A RELEASE arrives: the standby is entitled T later (R375). -/
def execReleaseReceive (lane : Fin 2) (intact : Bool) (tick ts : Nat) (at_ : Nat) (s : State) : Answer :=
  let s := setNow s at_
  .next (
    if !(sReceives s) || laneSt s (sLane lane) = 0 then s
    else if !intact || 2 ^ 64 ≤ tick || 2 ^ 64 ≤ ts then pktDiscard s
    else if s.role = .standby then entitle s (if s.pair.swap.isSome then 5 else 2) (s.now + 100 * periodT s)
    else s)

/-! ## Heartbeats (R365, R371, R380, R384) -/

/-- Lines of a whole resync: the home image and one copy of the journals (R382). -/
def syncTotal : Nat := 139264

/-- The lease is renewed by an acknowledged heartbeat (R371). -/
def leaseRenew (s : State) (hb : Hb) : State :=
  match hb.ackTick with
  | none => s
  | some n =>
    match s.pair.sent.find? fun e => decide (e.1 = n) with
    | none => s
    | some e =>
      if s.role = .active ∧ !s.pair.gate ∧ !s.pair.gaveUp then
        let x := e.2 + rn s K.PAIR_LEASE * periodT s * 100
        s.updPair fun p => { p with leaseX := some (match p.leaseX with | some y => max x y | none => x) }
      else s

/-- What an ACTIVE module makes of its partner's heartbeat; `old` is the one before it. A partner that was declared lost is one again when it is
SYNCING and has acknowledged a heartbeat that told it so. One that is still STANDBY after it has heard of an exchange through the standby has
refused it (Assumption 133). -/
def activeHears (s : State) (old : Option Hb) (hb : Hb) : State :=
  let s := s.updPair fun p => { p with unilateral := false }
  if hb.role = 2 then
    if s.pair.lost then s else
    let s := s.updPair fun p => { p with syncOn := false }
    let heard := match hb.ackTick with | some a => decide (s.exch.tickB < a) | none => false
    if !s.pair.xpair || rn s K.PAIR_SWAP_STATE ≠ 1 then s
    else if old.map Hb.role = some 3 then sn s K.PAIR_SWAP_STATE 2
    else if heard then xpairEnd s stCfg
    else s
  else
    let s := if old.map Hb.role = some 2 ∧ !s.pair.xpair then declareLost s else s
    if hb.role = 3 ∧ hb.state = 3 then
      let heard := match hb.ackTick with | some a => decide (s.pair.lostTick < a) | none => false
      let s := s.updPair fun p => { p with lost := p.lost && !heard }
      if s.pair.syncOn || s.pair.lost then s
      else if hb.progid8 = progid8 s ∧ hb.period = periodT s then
        sn (s.updPair fun p => { p with syncOn := true, syncPos := 0 }) K.PAIR_SYNC_TOTAL syncTotal
      else s
    else s.updPair fun p => { p with syncOn := false, syncPos := 0 }

/-- An exchange through the standby does not come to its swap: the module is SYNCING with an incomplete state, and a resync of the old program
follows (R388). -/
def xpairDrop (s : State) : State :=
  if s.pair.xpair && !s.pair.gaveUp then
    sn ((becomeSyncing (s.updPair fun p =>
      { p with xpair := false, syncOn := false, syncPos := 0, syncEnd := none, rx := [], sealq := [] })).updExch fun _ => Exch.idle) K.PAIR_SWAP_STATE 0
  else s

/-- What a STANDBY or SYNCING module makes of the active module's heartbeat, which arrived after `delay` ns. Member 1 of a standby pair follows
its own member 0 instead (R407). -/
def standbyHears (s : State) (hb : Hb) (delay : Nat) : State :=
  let s := s.updPair fun p => { p with rcvTs := s.now }
  let s := if hb.flags.testBit 2 then xpairDrop s else s
  let s := if s.mode = .run ∧ !(inQuad s && decide (jMember s = 1)) then alignTo s ((s.now : Int) - (delay / 10 : Nat)) hb.tick 100 else s
  let s := if s.role = .standby ∧ hb.flags.testBit 2 then becomeSyncing s else s
  if s.role = .syncing ∧ s.mode = .run ∧ !(decide (hb.progid8 = progid8 s) && decide (hb.period = periodT s)) then
    evb (orw s K.PAIR_STATUS 0x100) 0x6008 (hb.progid8 ++ p4 hb.period)
  else s

/-- An HB arrives on a lane (R363 to R367, R371, R377). -/
def execHbReceive (lane : Fin 2) (intact : Bool) (hb : Hb) (delay : Nat) (at_ : Nat) (s : State) : Answer :=
  let s := setNow s at_
  .next (
    if !(sReceives s) then s
    else if !intact then pktDiscard s
    else
      let old := s.pair.peer
      let s := (laneBeat s (sLane lane) delay).updPair fun p => { p with peer := some hb, peerEpoch := max p.peerEpoch hb.epoch }
      let s := sn s K.PAIR_PEER_ROLE hb.role
      let s := leaseRenew s hb
      if s.role = .active then activeHears s old hb
      else if hb.role = 1 ∧ (s.role = .standby ∨ s.role = .syncing) then standbyHears s hb delay
      else if s.role = .syncing then xpairDrop s
      else s)

/-! ## The mirror on the standby (R205, R380, R381, R388) -/

/-- A line goes to the memories and the home image. The store marks the line, and the write of its home line takes the mark back (R187, R192). -/
def putLine (s : State) (l : Nat) (b : List Byte) : State :=
  let s := if l < execLine0 then
      s.updMem fun m => { m with cells := cellWrite 0 m.cells (homePhys l) b, dirty := m.dirty.filter fun x => decide (x ≠ l) }
    else s
  s.updRet fun r => r.homeWrite l b

/-- A byte goes to the memories and the home image, in the same way. -/
def putHomeByte (s : State) (p : Nat) (v : Byte) : State :=
  let s := s.updMem fun m => { m with cells := cellSet 0 m.cells p v }
  match homeLine p with
  | some l => s.updRet fun r => r.homeByte (64 * l + p % 64) v
  | none => s

/-- Every COPY and TIMER entry that reads a line is executed on it, in map order (R388). -/
def translateLine (s : State) (m : Migrate) (l : Nat) (b : List Byte) : State :=
  let lo := homePhys l
  m.entries.foldl (fun (s : State) (e : MapE) =>
    if e.kind ≠ 1 ∧ e.kind ≠ 2 then s
    else
      let src := mapPhys e.srcCore e.src
      let a := max src lo
      (List.range (min (src + e.len) (lo + 64) - a)).foldl (fun (s : State) (i : Nat) =>
        let o := a + i - src
        if e.kind = 2 ∧ 8 ≤ o ∧ o < 16 then s
        else putHomeByte s (mapPhys e.dstCore e.dst + o) (b.getD (a + i - lo) 0)) s) s

/-- INIT and PRIME entries are executed once (R388). -/
def translateOnce (s : State) (g : Image) (m : Migrate) : State :=
  m.entries.foldl (fun (s : State) (e : MapE) =>
    if e.kind ≠ 3 ∧ e.kind ≠ 4 then s
    else
      (List.range (if e.kind = 3 then e.len else 1)).foldl (fun (s : State) (o : Nat) =>
        match mapByte s g e o with
        | some v => putHomeByte s (mapPhys e.dstCore e.dst + o) v
        | none => s) s) s

/-- The map in disjoint form (R387). -/
def mapDisjoint (m : Migrate) : Bool :=
  let dst := fun (e : MapE) => (mapPhys e.dstCore e.dst, mapPhys e.dstCore e.dst + e.len)
  let src := fun (e : MapE) => (mapPhys e.srcCore e.src, mapPhys e.srcCore e.src + e.len)
  let meets := fun (a b : Nat × Nat) => decide (a.1 < b.2) && decide (b.1 < a.2)
  let ix := (List.range m.entries.length).zip m.entries
  (ix.all fun x => !(decide (x.2.kind = 1 ∨ x.2.kind = 2)) || ix.all fun y => !(meets (src x.2) (dst y.2))) &&
    (ix.all fun x => ix.all fun y =>
      !(decide (x.1 < y.1) && meets (dst x.2) (dst y.2)) ||
        (decide (x.2.kind = 3) && decide (y.2.kind = 2) && decide ((dst x.2).1 ≤ (dst y.2).1) && decide ((dst y.2).2 ≤ (dst x.2).2)))

/-- A received line takes its place: a line of memory is translated while an exchange through the standby is under way; a journal line is sound
in both copies, and its contents come with the seal (Assumption 13). -/
def takeLine (s : State) (l : Nat) (b : List Byte) : State :=
  if jLine0 ≤ l then s.updRet fun r => { r with badJourn := r.badJourn.filter fun q => decide (q.1 ≠ l - jLine0) }
  else match s.pair.xpair, s.exch.image.bind Image.migrate with
  | true, some m => if l < execLine0 then translateLine s m l b else putLine s l b
  | _, _ => putLine s l b

/-- The stream is broken: the standby becomes SYNCING, and a resync follows (R380). -/
def mirrorBroken (s : State) : State :=
  let s := becomeSyncing (s.updPair fun p => { p with rx := [], sealq := [], syncOn := false, syncPos := 0, syncEnd := none })
  evFree s 0x6005 [] (p8 s.tick.n)

/-- This module takes mirror records. -/
def takesMirror (s : State) : Bool := sReceives s && decide (s.mode = .run) && (s.role = .standby || s.role = .syncing)

/-- SEQ16 and DEST of a log tag (Table 6-5). -/
def tagSeq (tag : Nat) : Nat := tag / 2 ^ 48 % 2 ^ 16
/-- DEST. -/
def tagDest (tag : Nat) : Nat := tag % 2 ^ 18

/-- TICK of the newest record that a SEAL has closed here. -/
def lastSeal (s : State) : Option Nat :=
  match s.pair.sealq.getLast? with
  | some r => some r.tick
  | none => match s.ret.dir.getLast? with | some r => if r.mirror then some r.tick else none | none => none

/-- A LINE packet (R204, R205, R380): the first intact copy of a line counts, and what comes after the SEAL of its record is a copy too; one with
another SEQ16 begins a stream whose predecessor had no SEAL. -/
def execLineReceive (lane : Fin 2) (intact : Bool) (index tag : Nat) (line : List Byte) (at_ : Nat) (s : State) : Answer :=
  let s := setNow s at_
  .next (
    if !(takesMirror s) || laneSt s (sLane lane) = 0 then s
    else if !intact || line.length ≠ 64 then pktDiscard s
    else if (lastSeal s).map (fun n => n % 2 ^ 16) = some (tagSeq tag) then s
    else if s.pair.rx.any fun e => decide (tagSeq e.2.1 ≠ tagSeq tag) then
      let s := if s.role = .standby then mirrorBroken s else s
      s.updPair fun p => { p with rx := [(index, tag, line)] }
    else if s.pair.rx.any fun e => decide (e.1 = index) then s
    else s.updPair fun p => { p with rx := p.rx ++ [(index, tag, line)] })

/-- The `n` lines of a record, in its order, by destination; none where one is missing. -/
def rxLines (l : List (Nat × Nat × List Byte)) (n : Nat) : Option (List (Nat × List Byte)) :=
  let r := (List.range n).filterMap fun i => (l.find? fun e => decide (e.1 = i)).map fun e => (tagDest e.2.1, e.2.2)
  if r.length = n ∧ l.length = n then some r else none

/-- TICK of the newest record known to the standby. -/
def lastMirror (s : State) : Nat :=
  match s.pair.sealq.getLast? with
  | some r => r.tick
  | none => match openRec s with | some r => r.tick | none => s.ret.durTick

/-- A SEAL packet: the record is complete and goes through the commit engine (R205, R380). `st` is what its journal and executive lines say. -/
def execSealReceive (lane : Fin 2) (intact : Bool) (sm : SealMsg) (st : RetState) (at_ : Nat) (s : State) : Answer :=
  let s := setNow s at_
  .next (
    if !(takesMirror s) || laneSt s (sLane lane) = 0 then s
    else if !intact then pktDiscard s
    else if lastSeal s = some sm.tick || (decide (s.role = .standby) && decide (sm.tick ≤ lastMirror s)) then s
    else if s.role = .syncing ∧ !s.pair.syncOn then s.updPair fun p => { p with rx := [] }
    else
      match rxLines s.pair.rx sm.nlines with
      | none => if s.role = .standby then mirrorBroken s else s.updPair fun p => { p with rx := [] }
      | some lines =>
        if s.role = .standby ∧ sm.first ≠ lastMirror s + 1 then mirrorBroken s
        else
          let r : Rec := { tick := sm.tick, first := sm.first, edgeTs := sm.edgeTs, start := s.ret.logNext, nlines := sm.nlines,
                           progid8 := if s.pair.xpair then (match s.exch.image with | some g => padTo 8 (g.progid.take 8) | none => sm.progid8) else sm.progid8,
                           paired := true, cold := false, merged := sm.merged, hcrc := 0, st := .open_,
                           tags := lines.map (logTag sm.tick), body := some { lines := lines, j := st.j, x := st.x }, mirror := true, began := s.now }
          let s := s.updPair fun p => { p with rx := [] }
          if (openRec s).isSome then s.updPair fun p => { p with sealq := p.sealq ++ [r] } else addRec s r)

/-- The journals and the executive state of the active module take the place of the standby's; the INCOMPLETE mark is its own, and its epoch
does not fall (R205, R377, R383). -/
def putRetState (s : State) (j : Journals) (x : ExecRet) : State :=
  s.updRet fun r =>
    let x := { x with incomplete := r.x.incomplete, epoch := max r.x.epoch x.epoch }
    { r.writeJ j with j := j, x := x, xd := x }

/-- The INCOMPLETE mark (R383). -/
def setIncomplete (s : State) (v : Bool) : State :=
  s.updRet fun r => { r with x := { r.x with incomplete := v }, xd := { r.xd with incomplete := v } }

/-- The standby of an exchange has preloaded the new CODE and written its activation (Table 12-8). -/
def xpairBuilt (s : State) : Bool := !s.pair.xpair || (s.exch.loaded && s.exch.written)

/-- The preload is complete: the CODE sections are in the idle banks, and their measurement agrees (R178, R388). One that does not ends the
exchange; on the standby of an exchange the module has failed its part, and restarts (Assumption 133). The active module of such an exchange
preloads nothing. -/
def execExchangePreload (s : State) : Answer :=
  .next (match s.exch.image with
    | some g =>
      if s.exch.st ≠ 1 ∨ s.exch.loaded ∨ (s.exch.pair ∧ s.role = .active) then s
      else if !(measOk s s.exch.slot fun e => decide (e.id = 0x11)) then
        (if s.exch.pair then s.updWdg fun w => { w with restartDue := true, mark := .level2 } else exchangeAbandon s stCfg)
      else (placeCode s g.code fun c => !(s.mem.bank.toList.getD c false)).updExch fun e => { e with loaded := true }
    | none => s)

/-- The standby of an exchange writes its activation in spare time (Table 12-8). -/
def xpairActivate (s : State) : State :=
  if s.pair.xpair ∧ s.role = .syncing ∧ !s.pair.gaveUp ∧ s.exch.loaded ∧ !s.exch.written ∧ s.upd.op = .none ∧ !s.upd.recovering then
    { s with upd := { s.upd with op := .activate none s.exch.slot 0 true 1 } }
  else s

/-- A resync is complete: the module becomes STANDBY (R383, R388). -/
def resyncDone (s : State) : State :=
  let s := setIncomplete s false
  let s := ev { s with role := .standby } 0x6006 (p4 s.pair.syncPos ++ p4 s.pair.syncTicks)
  let s := s.updPair fun p => { p with syncOn := false, syncEnd := none }
  if s.pair.xpair then sn s K.PAIR_SWAP_STATE 2 else s

/-- A mirror record is APPLIED on the standby: memories, home image, journals; its confirmation leaves, and the next record begins (R205). -/
def mirrorApplied (s : State) (r : Rec) (b : RecBody) : State :=
  let s := setRec s { r with st := .applied, body := none }
  let s := b.lines.foldl (fun (s : State) (l : Nat × List Byte) => takeLine s l.1 l.2) s
  let s := putRetState s b.j b.x
  let d := s.now - r.began
  let s := maxw (sn s K.RET_COMMIT_LAST d) K.RET_COMMIT_MAX d
  let s := s.updRet fun q => { q with durTick := r.tick, durTs := r.edgeTs }
  let s := sendUp s 0x04 (p8 r.tick)
  let s := match s.pair.syncEnd with
    | some t => if s.role = Role.syncing ∧ t ≤ r.began ∧ xpairBuilt s then resyncDone s else s
    | none => s
  match s.pair.sealq with
  | [] => s
  | n :: rest => addRec (s.updPair fun p => { p with sealq := rest }) { n with start := s.ret.logNext }

/-- A mirror confirmation arrives (R205, R207, R210). -/
def execConfReceive (lane : Fin 2) (intact : Bool) (tick : Nat) (at_ : Nat) (s : State) : Answer :=
  let s := setNow s at_
  .next (
    if !(sReceives s) || laneSt s (sLane lane) = 0 then s
    else if !intact then pktDiscard s
    else if s.role ≠ .active then s
    else
      let s := match s.pair.unconf.find? fun u => decide (u.1 = tick) with
        | some u => maxw s K.RET_MIRROR_LAG_MAX (s.now - u.2.2)
        | none => s
      releaseAcks (s.updPair fun p => { p with unconf := p.unconf.filter fun u => decide (tick < u.1) }))

/-- Phase O of tick n: the confirmation of tick n - 2 is late (R207, R386). -/
def mirrorLate (s : State) : State :=
  if !(standbyPartner s) then s.updPair fun p => { p with unconf := [] }
  else match s.pair.unconf.find? fun u => decide (u.1 + 2 ≤ s.tick.n) with
    | some u => declareLost (ev (orw s K.RET_STATUS 0x10) 0x3007 (p8 u.1))
    | none => s

/-! ## Resync (R381 to R384) -/

/-- Destination MRAM line of the i-th line of a resync. -/
def syncDest (i : Nat) : Nat := if i < 131072 then i else jLine0 + (i - 131072)

/-- One SYNC line leaves, on one lane: a home line, read through port F12 with its error check (R36, R382), or a journal line. What the journals and
the executive's state say goes beside the last line as a value (Assumption 13). -/
def syncLine (s : State) (i : Nat) : State :=
  let lane := if laneSt s 0 = 2 ∧ (laneSt s 1 ≠ 2 ∨ i % 2 = 0) then 0 else 1
  let s := if i < execLine0 then eccRange s (homePhys i) 64 12 else s
  let s := sendLane s lane 0x06 (p8 (syncDest i) ++ (if i < 131072 then lineBytes s i else jBytes s.ret.j (i - 131072)))
  if i + 1 = syncTotal then emit s (.retState lane s.now { j := s.ret.j, x := s.ret.x }) else s

/-- The SYNC lines of a tick whose mirror stream has `m` bytes (R382). -/
def resyncSend (s : State) (m : Nat) : State :=
  let u := (if laneSt s 0 = 2 then 1 else 0) + (if laneSt s 1 = 2 then 1 else 0)
  if !s.pair.syncOn || s.role ≠ .active || u = 0 then s
  else
    let t := periodT s
    let n := min (min (u * (375 * t - 2 * m) / 2) (400 * t - m) / 64) (syncTotal - s.pair.syncPos)
    let s' := (List.range n).foldl (fun (q : State) (i : Nat) => syncLine q (s.pair.syncPos + i)) s
    s'.updPair fun p => { p with syncPos := p.syncPos + n }

/-- The ticks of a resync are counted at the edges of the module that receives it (Table 12-11). -/
def resyncTick (s : State) : State :=
  if s.role = .syncing ∧ s.pair.syncOn then s.updPair fun p => { p with syncTicks := p.syncTicks + 1 } else s

/-- A SYNC packet is written directly to the home image or the journals (R381, R383). -/
def execSyncReceive (lane : Fin 2) (intact : Bool) (dest : Nat) (line : List Byte) (st : Option RetState) (at_ : Nat) (s : State) : Answer :=
  let s := setNow s at_
  .next (
    if !(takesMirror s) || s.role ≠ .syncing || laneSt s (sLane lane) = 0 then s
    else if !intact || line.length ≠ 64 then pktDiscard s
    else
      let s := if s.pair.syncOn then s else
        sn ((setIncomplete s true).updPair fun p => { p with syncOn := true, syncPos := 0, syncEnd := none, syncTicks := 0 }) K.PAIR_SYNC_TOTAL syncTotal
      let s := takeLine s dest line
      let s := match st with | some v => putRetState s v.j v.x | none => s
      let s := s.updPair fun p => { p with syncPos := p.syncPos + 1 }
      if dest = syncDest (syncTotal - 1) then s.updPair fun p => { p with syncEnd := some s.now } else s)

/-! ## Swap and exchange through the standby (R386 to R388) -/

/-- R386: the status of a PAIR_SWAP. -/
def swapCheck (s : State) : Nat :=
  if !(standbyPartner s) || s.mode ≠ .run then stRole
  else if s.pair.swap.isSome || s.pair.xpair then stBusy
  else stOk

/-- Phase O of tick s: the last tick of the program on this module (Table 12-7). -/
def swapBegin (s : State) (slot seq kind : Nat) : State :=
  let s := (s.updPair fun p => { p with swap := some s.tick.n, swapReq := some (slot, seq) }).updX 1 fun x => { x with swapReq := some (slot, seq, kind) }
  sendCtrl (sn s K.PAIR_SWAP_STATE 3) 1 s.tick.n

/-- No program runs in a tick after s, and its outputs hold (R386). -/
def swapHolds (s : State) : Bool := match s.pair.swap with | some n => decide (n < s.tick.n) && decide (s.role = .active) | none => false

/-- The handover at an edge from s + 2 on (R386). -/
def swapEdge (s : State) (busy : BusBusy) : State :=
  match s.pair.swap with
  | none => s
  | some n =>
    if s.role = .active ∧ n + 2 ≤ s.tick.n ∧ n ≤ s.ret.durTick ∧ !(s.pair.unconf.any fun u => decide (u.1 ≤ n)) then
      let s := panelQuit (busGate (linksSilent (dioAllOff s)) busy)
      let s := sendRelease s
      let s := sn (s.updPair fun p => { p with swap := none, swapReq := none }) K.PAIR_SWAP_STATE 0
      let s := s.updExch fun e => if s.pair.xpair then { e with tickN := n } else e
      hostAnew (becomeSyncing s)
    else s

/-- CTRL step 1: the partner hands the Pearl over (R386). -/
def execCtrlStepSwap (lane : Fin 2) (intact : Bool) (tick : Nat) (at_ : Nat) (s : State) : Answer :=
  let s := setNow s at_
  .next (
    if !(takesMirror s) || laneSt s (sLane lane) = 0 then s
    else if !intact then pktDiscard s
    else if s.role = .standby then sn (s.updPair fun p => { p with swap := some tick }) K.PAIR_SWAP_STATE 3
    else s)

/-- R387: the status of an exchange request with the mode PAIR. -/
def xpairCheck (s : State) (who slot : Nat) : Nat :=
  let st := exchangeCheck s who slot
  if st ≠ stOk then st
  else if !(standbyPartner s) then stRole
  else if s.pair.swap.isSome then stBusy
  else match (parseImage s slot).migrate with
    | some m => if mapDisjoint m then stOk else stCfg
    | none => stCfg

/-- The exchange through the standby is accepted (Table 12-8). -/
def xpairStart (s : State) (slot : Nat) (req : Nat × Nat) : State :=
  let s := (exchangeStart s slot (some req) true).updExch fun e => { e with tickB := s.tick.n }
  sendCtrl (sn (s.updPair fun p => { p with xpair := true }) K.PAIR_SWAP_STATE 1) 2 s.tick.n

/-- CTRL step 2 at the standby: the request is checked on it too (R387), and one that it may not accept leaves it as it is (Assumption 133); it
preloads, and translates what it receives (R388). -/
def execCtrlStepExchange (lane : Fin 2) (intact : Bool) (tick : Nat) (at_ : Nat) (s : State) : Answer :=
  let s := setNow s at_
  .next (
    if !(takesMirror s) || laneSt s (sLane lane) = 0 then s
    else if !intact || 2 ^ 64 ≤ tick then pktDiscard s
    else if s.role ≠ .standby || s.pair.xpair || 1 < s.upd.active || exchangeCheck s 0xFF (1 - s.upd.active) ≠ stOk then s
    else
      let slot := 1 - s.upd.active
      let s := exchangeStart s slot none true
      match s.exch.image with
      | none => s
      | some g =>
        let s := match g.migrate with | some m => translateOnce s g m | none => s
        let s := setIncomplete (s.updPair fun p => { p with xpair := true, syncOn := false, syncPos := 0, syncEnd := none }) true
        sn (becomeSyncing s) K.PAIR_SWAP_STATE 1)

/-- The former active module writes its own activation from edge s + 4 on (R388). -/
def xpairFormer (s : State) : State :=
  if s.pair.xpair ∧ s.role = .syncing ∧ s.pair.gaveUp ∧ s.exch.tickN ≠ 0 ∧ s.exch.tickN + 4 ≤ s.tick.n ∧ s.upd.op = .none then
    { s with upd := { s.upd with op := .activate none s.exch.slot 0 true 1 } }
  else s

end Sys2Proof.Machine
end

