-- ==== Sys2Proof/Machine/Join.lean ====
section
/-! DEFINITION. The join of two members over port J (R392 to R413): alignment, the exchange stream, coupled states, loss and the quad. -/

namespace Sys2Proof.Machine

/-- Lane number of port J. -/
def jLane (l : Fin 2) : Fin 4 := ⟨l.val + 2, by omega⟩
/-- Port J takes packets on a lane. -/
def jReceives (s : State) (l : Fin 2) : Bool := pairUnitOn s && jOn s && decide (laneSt s (jLane l) ≠ 0)

/-! ## Loss (R405, R406, R409) -/

/-- The join is lost. Reasons of 16#6013: 1 heartbeat, 2 STOP, 3 tick, 4 image, 5 exchange. -/
def joinLose (s : State) (reason : Nat) : State :=
  if !(joined s) then s
  else
    let quad := inQuad s
    let s := bump (orw (s.updJoin fun j => { j with st := 3, stale := true }) K.PAIR_J_STATUS 2) K.PAIR_J_LOSS_CNT
    let s := ev s 0x6013 (p4 reason ++ p4 s.join.policy)
    if quad then s.updJoin fun j => { j with stopDue := decide (s.role = .active), peerEnt := none }
    else s.updJoin fun j => { j with safeDue := j.safeDue || decide (j.policy = 0) }

/-- A member of an ACTIVE pair of a quad that has lost its join stops at an edge (R409). -/
def quadStop (s : State) (busy : BusBusy) : State :=
  if !s.join.stopDue then s
  else
    let s := s.updJoin fun j => { j with stopDue := false }
    becomeSyncing (sendRelease (panelQuit (busGate (linksSilent (dioAllOff s)) busy)))

/-! ## Alignment (R397) -/

/-- The master's edge of a heartbeat that took `delay` ns enters the last 16 (R397). -/
def joinNote (s : State) (edgeTs delay : Nat) : State :=
  if s.join.hist.head?.map Prod.fst = some edgeTs then s
  else s.updJoin fun j => { j with hist := ((edgeTs, s.now - delay / 10) :: j.hist).take 16 }

/-- How much longer than on this timebase a period of the master is, in units, by its last 16 edges (R397). -/
def joinDrift (s : State) : Int :=
  match s.join.hist.head?, s.join.hist.getLast? with
  | some a, some b =>
    let dm : Int := (a.1 : Int) - b.1
    let dn : Int := (a.2 : Int) - b.2
    if dm ≤ 0 then 0 else roundDiv (100 * s.tick.t * (dn - dm)) dm.toNat
  | _, _ => 0

/-- A member of a pair that stands by in a quad takes its master's tick number, which follows the active module's (R407). -/
def joinStandsBy (s : State) : Bool := inQuad s && decide (s.role ≠ .active)

/-- The follower's next edge lies where the master's is predicted, by the master's edge `tick` that a heartbeat which took `delay` ns
reported; the deviation of its present edge is reported. -/
def followMaster (s : State) (tick delay : Nat) : State :=
  let p : Int := (s.now : Int) - (delay / 10 : Nat)
  let tu : Int := 100 * s.tick.t
  let d := p - s.tick.edgeTs
  let dev := -10 * (d - (d + tu / 2) / tu * tu)
  let a := alignTo s (p + joinDrift s) tick (100 * s.tick.t)
  if !(ticking s.mode) then { a with tick := { a.tick with n := s.tick.n } }
  else
    let a := if s.join.firstTick.isNone || joinStandsBy s then a else { a with tick := { a.tick with n := s.tick.n } }
    let a := maxw (a.updJoin fun j => { j with align := dev }) K.PAIR_J_ALIGN_MAX dev.natAbs
    if 100 < dev.natAbs then evb (orw a K.PAIR_J_STATUS 8) 0x6016 (p4 (BitVec.ofInt 32 dev).toNat) else a

/-- The join is formed; its first tick is known (R396). -/
def joinFirst (s : State) : State :=
  if joined s && s.join.firstTick.isNone && ticking s.mode then
    ev (s.updJoin fun j => { j with firstTick := some s.tick.n }) 0x6011 (p4 (jMember s) ++ peerProg s ++ p8 s.tick.n)
  else s

/-- What R396 asks of a partner's heartbeat. -/
def joinMatches (s : State) (j : Jhb) : Bool :=
  decide (j.member ≠ jMember s) && decide (j.member ≠ 0xFF) && decide (j.progid8 = peerProg s) && decide (j.peerProg = progid8 s) &&
    decide (j.period = periodT s)

/-- A JHB arrives on a lane (R392 to R397, R405, R408). A partner that no longer shows ENTITLED from its first entitled edge on is entitled no
more. -/
def execJhbReceive (lane : Fin 2) (intact : Bool) (jhb : Jhb) (delay : Nat) (at_ : Nat) (s : State) : Answer :=
  let s := setNow s at_
  .next (
    if !(pairUnitOn s) then s
    else if !intact then pktDiscard s
    else if !(jOn s) then laneBeat s (jLane lane) delay
    else
      let s := joinNote ((laneBeat s (jLane lane) delay).updJoin fun j => { j with peer := some jhb }) jhb.edgeTs delay
      let s := match jhb.flags.testBit 3, s.join.peerEnt with
        | true, none => s.updJoin fun j => { j with peerEnt := some jhb.tick }
        | false, some m => if m ≤ jhb.tick then s.updJoin fun j => { j with peerEnt := none } else s
        | _, _ => s
      if s.join.st = 1 then
        if joinMatches s jhb then
          let s := s.updJoin fun j => { j with got := true }
          if s.join.master then s else followMaster s jhb.tick delay
        else s
      else if joined s then
        let s := s.updJoin fun j => { j with got := true }
        let s := releaseAcks s
        if !(ticking s.mode) then (if s.join.master then s else followMaster s jhb.tick delay)
        else if jhb.progid8 ≠ peerProg s then joinLose s 4
        else if s.join.firstTick.isSome && !(joinStandsBy s) && (decide (s.tick.n + 1 < jhb.tick) || decide (jhb.tick + 1 < s.tick.n)) then joinLose s 3
        else if s.join.master then s
        else if s.join.firstTick.isNone && decide (jhb.state ≠ 3) then s
        else joinFirst (followMaster s jhb.tick delay)
      else s)

/-! ## The exchange stream (R398 to R401) -/

/-- Segments of a stream of `len` bytes. -/
def segments (len : Nat) : Nat := (len + 1023) / 1024

/-- The exchange stream of the tick before leaves after the heartbeat, on both lanes (R393, R400). -/
def sendStream (s : State) : State :=
  match s.join.firstTick with
  | none => s
  | some f =>
    if !(joined s) || s.tick.n ≤ f then s
    else
      let d := s.join.outCap
      let t := s.tick.n - 1
      let s := (List.range (segments d.length)).foldl (fun (s : State) (i : Nat) =>
        sendJ s 0x22 (leBytes 2 t ++ leBytes 2 i ++ padTo 1024 ((d.drop (1024 * i)).take 1024))) s
      sendJ s 0x23 (p8 t ++ p4 d.length ++ p4 (crc32 d))

/-- The outgoing area is captured in Phase O (R400), by a member that stands by too: its area is what its memories hold. -/
def joinCapture (s : State) : State :=
  match getArea s 8 0 with
  | some b => s.updJoin fun j => { j with outCap := b }
  | none => s.updJoin fun j => { j with outCap := [] }

/-- A segment arrives; the first intact copy counts (R393). -/
def execXsegReceive (lane : Fin 2) (intact : Bool) (tick : Nat) (seg : Nat) (data : List Byte) (at_ : Nat) (s : State) : Answer :=
  let s := setNow s at_
  .next (
    if !(jReceives s lane) then s
    else if !intact || data.length ≠ 1024 then pktDiscard s
    else
      let t := tick % 65536
      let s := if s.join.rxTick = t then s else s.updJoin fun j => { j with rxTick := t, rx := [], rxEnd := none }
      if s.join.rx.any (fun e => decide (e.1 = seg)) then s else s.updJoin fun j => { j with rx := j.rx ++ [(seg, data)] })

/-- The end of a stream arrives (R401). -/
def execXendReceive (lane : Fin 2) (intact : Bool) (tick len crc : Nat) (at_ : Nat) (s : State) : Answer :=
  let s := setNow s at_
  .next (
    if !(jReceives s lane) then s
    else if !intact then pktDiscard s
    else
      let t := tick % 65536
      let s := if s.join.rxTick = t then s else s.updJoin fun j => { j with rxTick := t, rx := [], rxEnd := none }
      if s.join.rxEnd.isSome then s else s.updJoin fun j => { j with rxEnd := some (tick, len, crc) })

/-- Data bytes of the incoming area. -/
def joinInLen (s : State) : Nat := match findArea s 8 0 0 with | some a => a.len - 16 | none => 0

/-- The stream of tick `t`, if it is complete (R401). -/
def streamOf (s : State) (t : Nat) : Option (List Byte) :=
  match s.join.rxEnd with
  | none => none
  | some (tick, len, crc) =>
    let parts := (List.range (segments len)).filterMap fun i => (s.join.rx.find? fun e => decide (e.1 = i)).map Prod.snd
    let d := (parts.flatMap id).take len
    if tick = t ∧ parts.length = segments len ∧ len = joinInLen s ∧ crc32 d = crc then some d else none

/-- Bytes received of the stream of tick `t`. -/
def streamGot (s : State) (t : Nat) : Nat := if s.join.rxTick = t % 65536 then 1024 * s.join.rx.length else 0

/-- The stream is latched at an edge, or is late (R400, R401). -/
def joinLatch (s : State) : State :=
  match s.join.firstTick with
  | none => s
  | some f =>
    if !(joined s) || s.tick.n < f + 2 then s
    else
      let t := s.tick.n - 2
      match streamOf s t with
      | some d => s.updJoin fun j => { j with inData := d, inTick := t, stale := false, late := 0 }
      | none =>
        let s := s.updJoin fun j => { j with stale := true, late := j.late + 1 }
        let s := evb (orw (bump s K.PAIR_XLATE_CNT) K.PAIR_J_STATUS 0x10) 0x6014 (p8 t ++ p4 (streamGot s t))
        if s.join.lim ≤ s.join.late then joinLose s 5 else s

/-- The incoming area (Table 13-3). -/
def joinInput (s : State) : State :=
  putArea s 8 0 (leBytes 1 s.join.st ++ leBytes 1 ((if s.join.st = 3 then 2 else 0) + (if s.join.stale then 1 else 0)) ++ padTo 6 [] ++
    p8 s.join.inTick ++ padTo (joinInLen s) s.join.inData)

/-- The join at an edge of RUN, HELD or SAFE: missed heartbeats, the stream, and the input area (R400, R401, R405). -/
def joinEdge (s : State) : State :=
  if !(jOn s) then joinInput s
  else
    let s := if joined s ∧ s.join.master then joinFirst s else s
    let s := if joined s then s.updJoin fun j => { j with missed := if j.got then 0 else j.missed + 1, got := false } else s
    let s := if joined s ∧ 2 ≤ s.join.missed then joinLose s 1 else s
    joinInput (joinLatch s)

/-! ## JCTRL (R404, R405, R408) -/

/-- JCTRL SAFE: this member enters SAFE at its next edge. -/
def execJctrlSafe (lane : Fin 2) (intact : Bool) (at_ : Nat) (s : State) : Answer :=
  let s := setNow s at_
  .next (
    if !(jReceives s lane) then s
    else if !intact then pktDiscard s
    else if joined s ∧ (s.mode = .run ∨ s.mode = .held) then s.updJoin fun j => { j with safeDue := true }
    else s)

/-- JCTRL HOLD with tick n: this member exchanges to its own inactive slot, in HELD from edge n + 1. -/
def execJctrlHold (lane : Fin 2) (intact : Bool) (tick : Nat) (at_ : Nat) (s : State) : Answer :=
  let s := setNow s at_
  .next (
    if !(jReceives s lane) then s
    else if !intact then pktDiscard s
    else
      let slot := 1 - s.upd.active
      if !(joined s) || 1 < s.upd.active || s.exch.image.isSome || exchangeCheck s 0xFF slot ≠ stOk then s
      else
        let g := parseImage s slot
        let s := placeCode (exchangeStart s slot none false) g.code fun c => !(s.mem.bank.toList.getD c false)
        let s := s.updJ 1 fun j => { j with exr := some { slot := slot, progid := g.progid, req := none } }
        let s := s.updX 1 fun x => { x with mapEntry := 0, mapOfs := 0 }
        let s := ev s 0x1010 (progid s ++ g.progid ++ p8 s.tick.n)
        let s := s.updExch fun e => { e with st := 3, tickB := s.tick.n, tickN := tick, loaded := true, written := true }
        if s.upd.op = .none then { s with upd := { s.upd with op := .activate none slot 0 true 1 } } else s)

/-- JCTRL MAPDONE: where both maps are complete, this member installs its image in the same Phase O. -/
def execJctrlMapdone (lane : Fin 2) (intact : Bool) (tick : Nat) (at_ : Nat) (s : State) : Answer :=
  let s := setNow s at_
  .next (
    if !(jReceives s lane) then s
    else if !intact || 2 ^ 64 ≤ tick then pktDiscard s
    else if !(joined s) then s
    else
      let s := s.updJoin fun j => { j with peerMapDone := true }
      match s.exch.image with
      | some g => if s.exch.st = 4 ∧ s.join.mapDone ∧ s.mode = .held then mapComplete s g else s
      | none => s)

/-- JCTRL STOP: the join is lost. -/
def execJctrlStop (lane : Fin 2) (intact : Bool) (at_ : Nat) (s : State) : Answer :=
  let s := setNow s at_
  .next (if !(jReceives s lane) then s else if !intact then pktDiscard s else joinLose s 2)

/-- JCTRL ENTITLED with the number of the first edge at which the partner is entitled. -/
def execJctrlEntitled (lane : Fin 2) (intact : Bool) (tick : Nat) (at_ : Nat) (s : State) : Answer :=
  let s := setNow s at_
  .next (
    if !(jReceives s lane) then s
    else if !intact then pktDiscard s
    else if inQuad s then s.updJoin fun j => { j with peerEnt := some tick }
    else s)

/-- A member has been entitled alone for (LEASE + 2) T (R408). -/
def execQuadWait (at_ : Nat) (s : State) : Answer :=
  let s := setNow s at_
  .next (
    match s.join.ent with
    | some t =>
      if inQuad s ∧ s.pair.entitled.isSome ∧ s.join.peerEnt.isNone ∧ !s.join.qwait ∧ t + leaseSpan s ≤ s.now then
        quadAlone (ev (orw (s.updJoin fun j => { j with qwait := true }) K.PAIR_J_STATUS 0x20) 0x6017 (p8 s.tick.n))
      else s
    | none => s)

end Sys2Proof.Machine
end

