-- ==== Sys2Proof/Machine/Upd.lean ====
section
/-! DEFINITION. The updater, boot records, activation, keys and attestation (R550 to R576). -/

namespace Sys2Proof.Machine

/-! ## The carrier record (R567) -/

/-- Update the updater. -/
def State.updUpd (s : State) (f : Upd → Upd) : State := { s with upd := f s.upd }
/-- The carrier record changes in the commit, or directly outside ticks (R191, R567); `waitTick` is the tick that holds it. -/
def carRec (s : State) (f : CarRec → CarRec) : State :=
  let s := jDirect (s.updJ 1 fun j => { j with car := f j.car })
  s.updUpd fun u => { u with waitTick := commitTick s }
/-- The last change of the carrier record is durable. -/
def carDurable (s : State) : Bool := direct s || decide (s.upd.waitTick ≤ s.ret.durTick)
/-- The carrier record. -/
abbrev car (s : State) : CarRec := s.ret.j.car
/-- An empty carrier record. -/
def CarRec.none : CarRec :=
  { state := 0, slot := 0xFF, holder := 0xFF, opkind := 0, length := 0, erasedTo := 0, opsect := 0, opofs := 0, oplen := 0, scratch := false,
    prot := false, vmeas := [] }

/-- A carrier sector is erased. -/
def eraseSector (s : State) (j : Nat) : State :=
  s.updUpd fun u => { u with car := { u.car with cells := cellFilter (fun a => decide (a / 65536 ≠ j)) u.car.cells } }
/-- Bytes are programmed. -/
def program (s : State) (ofs : Nat) (b : List Byte) : State :=
  s.updUpd fun u => { u with car := { u.car with cells := cellWrite 0xFF u.car.cells ofs b } }

/-- A carrier operation fails (R566): 1 erase, 2 write, 3 activation. -/
def carFail (s : State) (ofs kind : Nat) : State := ev s 0xD00B (p4 ofs ++ p4 kind)

/-- The sector of the operation recorded is to be recovered (R568); a write is recovered through the scratch sector. -/
def recoverBegin (s : State) : State :=
  let s := (s.updUpd fun u => { u with recovering := true, op := .none })
  if (car s).opkind = 2 then carRec s fun c => { c with opkind := 3 } else s

/-! ## Requests under way -/

/-- The data of a refusal: its reason. -/
def reasonData (r : Nat) : List Byte := leBytes 2 r
/-- Status of a refusal (R563). -/
def reasonStatus (r : Nat) : Nat := if r = 4 ∨ r = 7 then stState else stCfg
/-- A block is refused (R563). -/
def blockRefused (s : State) (reason ofs : Nat) : State :=
  evb (orw (bump s K.UPD_REFUSE_CNT) K.UPD_STATUS 2) 0xD00A (p4 reason ++ p4 ofs)

/-- Sectors of an update, as bytes. -/
def eraseEnd (c : CarRec) : Nat := (c.length + 65535) / 65536 * 65536
/-- The record's state follows the erase progress. -/
def openState (c : CarRec) : CarRec := { c with state := if c.erasedTo < eraseEnd c then 1 else 2 }

/-- The reason for which a block is refused at once (R565); 0 for none. -/
def blockFail (s : State) (slot : Nat) (ofs : Nat) (d : List Byte) : Nat :=
  if (car s).holder ≠ slot then 7
  else if (car s).length < ofs + d.length then 3
  else if (car s).erasedTo < ofs + d.length then 4
  else 0

/-- The data already stand in the range. -/
def holds (s : State) (ofs : Nat) (d : List Byte) : Bool := carBytes s ofs d.length = d
/-- A bit of the range is 0 where the data bit is 1 (R565). -/
def overwrites (s : State) (ofs : Nat) (d : List Byte) : Bool :=
  ((carBytes s ofs d.length).zip d).any fun q => decide (q.1 &&& q.2 ≠ q.2)

/-- The next sector erase begins (R564). -/
def eraseNext (s : State) : State :=
  let c := car s
  if c.holder ≠ 0xFF ∧ c.state = 1 ∧ c.erasedTo < eraseEnd c then
    let s := carRec s fun c => { c with opkind := 1, opsect := (slotBase s c.slot + c.erasedTo) / 65536 }
    s.updUpd fun u => { u with op := .erase }
  else s

/-- A block begins: an accepted one clears VERIFIED (R565, R566). -/
def blockBegin (s : State) (slot seq ofs : Nat) (d : List Byte) : State :=
  let o := slotBase s (car s).slot + ofs
  let ow := overwrites s o d
  let s := carRec s fun c =>
    let c := if c.state = 3 && !ow then openState c else c
    { c with opkind := 2, opsect := o / 65536, opofs := o, oplen := d.length }
  s.updUpd fun u => { u with op := .write slot seq o d 0 false }

/-- The first waiting request begins. A block is judged again, since a request before it may have released or reopened the update;
without a request the next sector is erased. -/
def carTake (s : State) : List (Nat × Nat × Req) → State
  | [] => eraseNext (s.updUpd fun u => { u with waiting := [] })
  | (slot, seq, i) :: r =>
    let s := s.updUpd fun u => { u with waiting := r }
    match i with
    | .updBlock ofs d =>
      let f := blockFail s slot ofs d
      if f ≠ 0 then carTake (endJob (blockRefused s f ofs) (slot, seq) (reasonStatus f) (reasonData f) .none) r
      else blockBegin s slot seq ofs d
    | .updVerify =>
      if (car s).holder ≠ slot then carTake (endJob s (slot, seq) (reasonStatus 7) (reasonData 7) .none) r
      else s.updUpd fun u => { u with op := .verify slot seq }
    | .activate sl mode mig => s.updUpd fun u => { u with op := .activate (some (slot, seq)) sl mode mig 0, waitTick := commitTick s }
    | _ => carTake s r

/-- The next carrier operation begins once the carrier is free: a waiting request, else the next sector erase (R564). -/
def carNext (s : State) : State := if s.upd.op ≠ .none ∨ s.upd.recovering then s else carTake s s.upd.waiting

/-- The record of the operation is durable: a block is judged (R565, R566), an activation write begins (R570). -/
def carBegin (s : State) : State :=
  if !(carDurable s) then s
  else match s.upd.op with
  | .write slot seq ofs d 0 _ =>
    if holds s ofs d then s.updUpd fun u => { u with op := .write slot seq ofs d 2 true }
    else if overwrites s ofs d then s.updUpd fun u => { u with op := .write slot seq ofs d 3 false }
    else s.updUpd fun u => { u with op := .write slot seq ofs d 1 false }
  | .activate req slot mode mig 0 =>
    let s := carRec s fun c => { CarRec.none with holder := c.holder, slot := c.slot, prot := true }
    s.updUpd fun u => { u with op := .activate req slot mode mig 1 }
  | _ => s

/-- The result of a block in Phase O (Table 21-8). -/
def carResult (s : State) : State :=
  match s.upd.op with
  | .write slot seq ofs _ 2 ok =>
    if ok then
      let s := carRec (s.updUpd fun u => { u with op := .none }) fun c => { c with opkind := 0 }
      endJob (bump s K.UPD_BLOCK_CNT) (slot, seq) stOk [] .none
    else
      let s := recoverBegin s
      endJob (carFail s ofs 2) (slot, seq) stCfg (reasonData 6) .none
  | .write slot seq ofs _ 3 _ =>
    let s := carRec (s.updUpd fun u => { u with op := .none }) fun c => { c with opkind := 0 }
    endJob (blockRefused s 5 (ofs - slotBase s (car s).slot)) (slot, seq) stCfg (reasonData 5) .none
  | _ => s

/-- What the updater does at an instant at which nothing but time is missing: in spare time while ticks run. -/
def carRun (s : State) : State :=
  let s := carBegin (carNext s)
  if direct s then carBegin (carNext (carResult s)) else s

/-- The updater in Phase O. -/
def carPhaseO (s : State) : State := carRun (carResult s)

/-! ## Requests (R564, R565, R562, R569, R570) -/

/-- A refusal of an update request with its reason. -/
def updRefuse (s : State) (slot : Fin 8) (seq kind reason : Nat) : State :=
  finish s slot seq kind (reasonStatus reason) (reasonData reason) .none false true
/-- A result without data. -/
def updDone (s : State) (slot : Fin 8) (seq kind status : Nat) : State := finish s slot seq kind status [] .none false true

/-- An exchange is in progress, or a recovery under R568. -/
def updBusy (s : State) (slot : Fin 8) : Bool :=
  ((car s).holder ≠ 0xFF && (car s).holder ≠ slot.val) || decide (s.exch.st ≠ 0) || s.upd.recovering

/-- UPD_OPEN. -/
def updOpen (s : State) (slot : Fin 8) (seq sl : Nat) (resume : Bool) (len : Nat) : State :=
  if 1 < sl then updDone s slot seq 0x50 stCfg
  else if updBusy s slot then updDone s slot seq 0x50 stBusy
  else if sl = s.upd.active ∨ (car s).prot then updRefuse s slot seq 0x50 1
  else if len % 8 ≠ 0 ∨ len < 1024 ∨ slotSize s < len then updRefuse s slot seq 0x50 2
  else
    let keep := resume && decide ((car s).slot = sl) && decide ((car s).length = len)
    let s := carRec s fun c =>
      openState { c with slot := sl, holder := slot.val, length := len, erasedTo := if keep then c.erasedTo else 0 }
    let s := ev (s.updUpd fun u => { u with idleTs := s.now }) 0xD001 (p4 sl ++ p4 len ++ p4 (if resume then 1 else 0))
    carRun (updDone s slot seq 0x50 stOk)

/-- A request of the updater waits for the carrier. -/
def updWait (s : State) (slot : Fin 8) (seq kind : Nat) (i : Req) : State :=
  carRun ((startJob s slot seq kind).updUpd fun u => { u with waiting := u.waiting ++ [(slot.val, seq, i)] })

/-- UPD_BLOCK. -/
def updBlockReq (s : State) (slot : Fin 8) (seq ofs : Nat) (d : List Byte) (i : Req) : State :=
  if d.length % 8 ≠ 0 ∨ d.length < 8 ∨ 1024 < d.length ∨ ofs % 8 ≠ 0 then updDone s slot seq 0x51 stCfg
  else
    let r := blockFail s slot.val ofs d
    if r ≠ 0 then updRefuse (blockRefused s r ofs) slot seq 0x51 r
    else updWait s slot seq 0x51 i

/-- UPD_VERIFY. -/
def updVerifyReq (s : State) (slot : Fin 8) (seq : Nat) (i : Req) : State :=
  if (car s).holder ≠ slot.val then updRefuse s slot seq 0x52 7 else updWait s slot seq 0x52 i

/-- UPD_CLOSE. -/
def updCloseReq (s : State) (slot : Fin 8) (seq : Nat) : State :=
  if (car s).holder ≠ slot.val then updRefuse s slot seq 0x53 7 else updDone (updRelease s 1) slot seq 0x53 stOk

/-- ACTIVATE. -/
def activateReq (s : State) (slot : Fin 8) (seq sl mode : Nat) (mig : Bool) (i : Req) : State :=
  if mode ≠ 1 ∧ mode ≠ 2 then updDone s slot seq 0x54 stCfg
  else if !(slotVerified s sl) then updRefuse s slot seq 0x54 6
  else if (car s).prot then updRefuse s slot seq 0x54 1
  else if updBusy s slot then updDone s slot seq 0x54 stBusy
  else if s.mode = .cedar ∧ (mode = 1 ∨ mig) then updDone s slot seq 0x54 stCedar
  else if mig && !(migrateOk s (parseImage s sl)) then updDone s slot seq 0x54 stCfg
  else
    let s := if mig then
        (s.updJ 1 fun j => { j with exr := some { slot := sl, progid := (parseImage s sl).progid, req := none } }).updX 1
          fun x => { x with mapEntry := 0, mapOfs := 0 }
      else s
    updWait s slot seq 0x54 i

/-! ## Carrier operations end -/

/-- A sector erase of the update ends (R564). -/
def execSectorEraseEnd (ok : Bool) (at_ : Nat) (s : State) : Answer :=
  let s := setNow s at_
  .next (
    if s.upd.op ≠ .erase ∨ !(carDurable s) then s
    else if !ok then recoverBegin (carFail s (65536 * (car s).opsect) 1)
    else
      let s := bump (eraseSector s (car s).opsect) K.UPD_ERASE_CNT
      let s := carRec (s.updUpd fun u => { u with op := .none }) fun c =>
        let c := { c with opkind := 0 }
        if 65536 * c.opsect = slotBase s c.slot + c.erasedTo then openState { c with erasedTo := c.erasedTo + 65536 } else c
      carRun s)

/-- Programming and read-back of a block end (R566). -/
def execBlockProgramEnd (ok : Bool) (at_ : Nat) (s : State) : Answer :=
  let s := setNow s at_
  .next (
    match s.upd.op with
    | .write slot seq ofs d 1 _ =>
      let s := if ok then program s ofs d
        else program { s with free := s.free + 1 } ofs (padTo d.length (Config.freshBytes s.free d.length))
      let s := s.updUpd fun u => { u with op := .write slot seq ofs d 2 ok }
      if direct s then carRun (carResult s) else s
    | _ => s)

/-- Verification of the slot ends (R562); `ok` says that no carrier read failed twice. -/
def execVerifyEnd (ok : Bool) (at_ : Nat) (s : State) : Answer :=
  let s := setNow s at_
  .next (
    match s.upd.op with
    | .verify slot seq =>
      let sl := (car s).slot
      let code := if ok then verifyCode s sl else 7
      let s := ev (s.updUpd fun u => { u with op := .none, vresult := code }) 0xD004 (p4 sl ++ p4 code)
      let s := if code = 0 then carRec s fun c => { c with state := 3, vmeas := (contMeas s sl).take 16 } else orw s K.UPD_STATUS 4
      carRun (endJob s (slot, seq) stOk [] .none)
    | _ => s)

/-- The 32 bytes of a boot-record copy (Table 21-3). -/
def bootBytes (s : State) (slot seq : Nat) : List Byte :=
  let b := p4 0x52424C56 ++ leBytes 1 slot ++ padTo 3 [] ++ p8 seq ++ (contMeas s slot).take 12
  b ++ p4 (crc32 b)

/-- An activation write ends with its read-back (R551, R570). One that fails is taken again for an exchange and answered for a
request. -/
def execActivationWriteEnd (ok : Bool) (at_ : Nat) (s : State) : Answer :=
  let s := setNow s at_
  .next (
    match s.upd.op with
    | .activate req slot mode mig 1 =>
      let copy := 1 - s.upd.copy
      let seq := s.upd.brSeq + 1
      let erased := eraseSector s copy
      if !ok then
        let s := carFail erased (65536 * copy) 3
        match req with
        | none => s
        | some r => carRun (endJob (s.updUpd fun u => { u with op := .none }) r stCfg (reasonData 6) .none)
      else
        let s := program erased (65536 * copy) (bootBytes s slot seq)
        let s := s.updUpd fun u => { u with op := .none, active := slot, brSeq := seq, copy := copy }
        match req with
        | none =>
          let s := carRec s fun c => { CarRec.none with holder := c.holder, slot := c.slot, prot := true }
          let s := if s.exch.st = 3 ∨ (s.pair.xpair ∧ !s.pair.gaveUp) then s.updExch fun e => { e with written := true } else s
          carRun (if s.pair.xpair ∧ s.role = Role.syncing ∧ s.pair.gaveUp then dueRestart s .level2 else s)
        | some r =>
          let s := ev s 0xD005 (p4 slot ++ p4 mode ++ p8 seq ++ p4 (if mig then 1 else 0))
          let s := endJob (updRelease s 2) r stOk [] (if mode = 2 then .restart else .none)
          carRun s
    | _ => s)

/-- The start path still reads the carrier. -/
def startReads (s : State) : Bool :=
  match s.start.step with | .boot | .exec | .program => true | _ => false

/-- One step of the recovery of an interrupted carrier operation ends (R568). -/
def execCarrierRecoveryStep (ok : Bool) (at_ : Nat) (s : State) : Answer :=
  let s := setNow s at_
  .next (
    if !s.upd.recovering || startReads s || !(carDurable s) then s
    else
      let c := car s
      let done := fun (s : State) (kind : Nat) =>
        let s := orw (bump (s.updUpd fun u => { u with recovering := false }) K.UPD_RECOVER_CNT) K.UPD_STATUS 8
        carRun (ev s 0xD003 (p4 c.opsect ++ p4 kind))
      if !ok then carFail s (65536 * c.opsect) c.opkind
      else if c.opkind = 1 then done (carRec (eraseSector s c.opsect) fun c => { c with opkind := 0 }) 1
      else if c.opkind = 3 then carRec (eraseSector s 2) fun c => { c with opkind := 4 }
      else if c.opkind = 4 then
        let src := carBytes s (65536 * c.opsect) 65536
        let lo := c.opofs % 65536
        let img := src.take lo ++ List.replicate c.oplen 0xFF ++ src.drop (lo + c.oplen)
        carRec (program s 0x20000 (img.take 65536)) fun c => { c with opkind := 5, scratch := true }
      else if c.opkind = 5 then
        let img := carBytes s 0x20000 65536
        done (carRec (program (eraseSector s c.opsect) (65536 * c.opsect) img) fun c => { c with opkind := 0, scratch := false }) 2
      else s)

/-- 60 s without an update request of the holder (R569). -/
def execUpdateIdleTimeout (at_ : Nat) (s : State) : Answer :=
  let s := setNow s at_
  .next (
    if (car s).holder ≠ 0xFF ∧ s.upd.idleTs + 6000000000 ≤ s.now then updRelease (orw s K.UPD_STATUS 1) 3 else s)

/-! ## Identity, attestation and keys (R557 to R561, R572, R573) -/

/-- DEVID (Table 20-6). -/
def devId : List Byte := shake256 16 Config.deviceKey
/-- Bytes of a text. -/
def ascii (t : String) : List Byte := t.toList.map fun c => BitVec.ofNat 8 c.toNat

/-- The body of IDENTITY. -/
def identityBody : List Byte :=
  padTo 57 Config.deviceKey ++ padTo 3 [] ++ leBytes 8 Config.moduleSerial.toNat ++ leBytes 1 1 ++ leBytes 1 (if Config.moduleGradeE then 1 else 0) ++
    padTo 2 [] ++ padTo 114 Config.deviceCert

/-- The attestation report (Table 21-10). -/
def attestReport (s : State) (challenge : List Byte) : List Byte :=
  let rom := decide (s.mode = .cedar) && decide (s.start.source = 1)
  let b := fun (n : Nat) (l : List Byte) => if rom then padTo n [] else padTo n (l.take n)
  padTo 16 devId ++ padTo 32 (challenge.take 32) ++ leBytes 8 s.now ++ leBytes 1 (modeCode s.mode) ++ leBytes 1 (roleCode (shownRole s)) ++
    leBytes 1 s.upd.booted ++ leBytes 1 s.trust.rollback ++ leBytes 2 (readTrust s K.TRUST_OWNER_MASK 1).toNat ++ padTo 2 [] ++
    leBytes 8 s.upd.brSeq ++ padTo 32 (Config.romMeas.take 32) ++ b 32 s.trust.execMeas ++ b 64 s.trust.imgM ++ b 16 (progid s) ++
    (s.trust.owners.toList.flatMap fun o => if o.enrolled then padTo 8 (shake256 8 o.key) else padTo 8 [])

/-- The body of an ATTEST response. -/
def attestBody (s : State) (challenge : List Byte) : List Byte :=
  let r := attestReport s challenge
  r ++ padTo 114 (Config.ed448Sign (shake256 64 (ascii "VL-ATTEST" ++ r)))

/-- The owner slots. -/
def ownerIds : List (Fin 4) := [0, 1, 2, 3]
/-- No owner slot is enrolled. -/
def noOwner (s : State) : Bool := ownerIds.all fun i => !s.trust.owners[i].enrolled

/-- OWNER_ENROLL. -/
def ownerEnroll (s : State) (slot : Fin 8) (seq : Nat) (key : List Byte) (o : Nat) (sig : List Byte) : State :=
  if h : o < 4 then
    let i : Fin 4 := ⟨o, h⟩
    let q := s.trust.owners[i]
    let none := noOwner s
    if !none && !s.ret.j.hdrs[slot].priv then finish s slot seq 0x57 stPriv [] .none false false
    else if (none && decide (o ≠ 0)) || q.enrolled || key.length ≠ 57 ||
        !(Config.ed448Verify key (ascii "VL-OWNER" ++ devId ++ leBytes 8 s.ret.j.hdrs[slot].nonce.toNat) sig) then updDone s slot seq 0x57 stCfg
    else
      let s := { s with trust := { s.trust with owners := s.trust.owners.set i { key := key, enrolled := true, revoked := false } i.isLt } }
      updDone (ev (orw s K.TRUST_STATUS 2) 0xD007 (p4 o ++ shake256 8 key)) slot seq 0x57 stOk
  else updDone s slot seq 0x57 stCfg

/-- OWNER_REVOKE. -/
def ownerRevoke (s : State) (slot : Fin 8) (seq o : Nat) : State :=
  if h : o < 4 then
    let i : Fin 4 := ⟨o, h⟩
    let q := s.trust.owners[i]
    if !q.enrolled then updDone s slot seq 0x58 stCfg
    else if ownerIds.all (fun j => decide (j = i) || !s.trust.owners[j].enrolled || s.trust.owners[j].revoked) then
      updDone s slot seq 0x58 stState
    else
      let s := { s with trust := { s.trust with owners := s.trust.owners.set i { q with revoked := true } i.isLt } }
      let s := if s.trust.signer = some o ∧ s.prog.isSome then orw s K.TRUST_STATUS 4 else s
      updDone (ev s 0xD008 (p4 o)) slot seq 0x58 stOk
  else updDone s slot seq 0x58 stCfg

/-- ROLLBACK_ADVANCE. -/
def rollbackAdvance (s : State) (slot : Fin 8) (seq step : Nat) : State :=
  if s.mode = .run ∧ s.prog.map Image.rollback = some step ∧ s.trust.rollback < step then
    updDone (ev (orw { s with trust := { s.trust with rollback := step } } K.TRUST_STATUS 1) 0xD009 (p4 step)) slot seq 0x59 stOk
  else updDone s slot seq 0x59 stState

end Sys2Proof.Machine
end

