-- ==== Sys2Proof/Machine/Start.lean ====
section
/-! DEFINITION. Supplies, the start path, recovery, Cedar holds, wake and power loss (R211 to R214, R220 to R246, R369, R396, R550, R552). -/

namespace Sys2Proof.Machine

/-- Update the start path. -/
def State.updStart (s : State) (f : Start → Start) : State := { s with start := f s.start }
/-- Update the supplies. -/
def State.updPower (s : State) (f : Power → Power) : State := { s with power := f s.power }

/-! ## Power-up (R46, R220, R221) -/

/-- The measured L+ voltage; below 19.2 V it is LOW (R220). -/
def lplusMeasured (s : State) (mv : Nat) : State :=
  let s := sn s K.POWER_LPLUS_MV mv
  if mv < 19200 then orw s K.POWER_STATUS 4 else s

/-- What an OFF module keeps: MRAM, clock domain, carrier, one-time-programmable storage, pins. RTC.CFGREJ_CNT is a word of the clock
domain and stays (R485), against the counters' zero at power-up of R17 (Assumption 134). -/
def poweredOff (s : State) (c : Carrier) : State :=
  let r := State.reset
  { r with
    pending := s.pending
    par := s.par.filter fun q => decide (q.1 / 65536 = 0xC00)
    ret := { s.ret with j := s.ret.jd, x := s.ret.xd, mergeFrom := none, durTick := 0, durTs := 0, resv := 0, acks := [] }
    enc := { r.enc with ports := Vector.ofFn fun (k : Fin 4) =>
      { r.enc.ports[k] with a := s.enc.ports[k].a, b := s.enc.ports[k].b, vsel24 := s.enc.ports[k].vsel24 } }
    dio := { r.dio with di := s.dio.di.map fun d => { d with c := 0, f := false, init := true, brk := false } }
    rtc := { s.rtc with shadow := Vector.replicate 8 none }
    evr := { s.evr with queue := [], bursts := [], gap := false, scanning := false, cur := Vector.replicate 8 0, toggle := Vector.replicate 8 false }
    upd := { r.upd with car := c }
    trust := { r.trust with owners := s.trust.owners, rollback := s.trust.rollback }
    power := { r.power with m1 := s.power.m1, m2 := s.power.m2 }
    out := s.out
    free := s.free }

/-- L+ becomes present after OFF: power-up, with the carrier that is fitted (R46, R221). -/
def execLPlusPresent (mv : Nat) (carrier : Carrier) (s : State) : Answer :=
  .next (
    if s.mode ≠ .off ∨ mv < 18800 then s
    else
      let s := poweredOff s carrier
      lplusMeasured { s with mode := .reset
                             start := { s.start with step := .reset, kind := 1, began := 0 }
                             power := { s.power with present := true, since := 0 } } mv)

/-- L+ is present again while the module waits in RESET with the bank above 15.0 V: a start of kind 5 follows (R243). -/
def execLPlusReturn (at_ : Nat) (s : State) : Answer :=
  let s := setNow s at_
  .next (if s.mode = .reset ∧ !s.power.present then s.updPower fun p => { p with present := true, since := s.now } else s)

/-- The bank falls below 15.0 V in RESET without L+: the module is OFF (R243). -/
def execBankEmpty (at_ : Nat) (s : State) : Answer :=
  let s := setNow s at_
  .next (if s.mode = .reset ∧ !s.power.present then { s with mode := .off, start := { s.start with step := .none } } else s)

/-! ## Group supplies (R223) -/

/-- A group supply has been absent for its filter. An OFF module counts and records nothing of it (R222). -/
def execGroupSupplyLost (g : Fin 2) (mv : Nat) (at_ : Nat) (s : State) : Answer :=
  let s := setNow s at_
  .next (
    if !(if g = 0 then s.power.m1 else s.power.m2) then s
    else if s.mode = .off then s.updPower fun p => if g = 0 then { p with m1 := false } else { p with m2 := false }
    else
      let s := dioGroupLost s g
      let s := s.updPower fun p => if g = 0 then { p with m1 := false } else { p with m2 := false }
      let s := orw (bump s (K.POWER_M1_LOSS_CNT + g.val)) K.POWER_STATUS (if g = 0 then 1 else 2)
      ev s 0x0004 (p4 (g.val + 1) ++ p4 mv))

/-- A group supply has been present again for 10 ms. -/
def execGroupSupplyReturn (g : Fin 2) (at_ : Nat) (s : State) : Answer :=
  let s := setNow s at_
  .next (
    if (if g = 0 then s.power.m1 else s.power.m2) then s
    else if s.mode = .off then s.updPower fun p => if g = 0 then { p with m1 := true } else { p with m2 := true }
    else
      let s := s.updPower fun p => if g = 0 then { p with m1 := true } else { p with m2 := true }
      ev (dioGroupBack s g) 0x0005 (p4 (g.val + 1)))

/-! ## Release from RESET (R221, R225, R226) -/

/-- Parameter words at a restart: a level-2 restart and a power return reset them but for those that count since power-up and the
clock's; a level-1 restart leaves what the image does not set (R225, Assumption 11). -/
def wordsRestart (s : State) (kind : Nat) : State :=
  if kind = 3 then s
  else { s with par := s.par.filter fun q => decide (q.1 / 65536 = 0xC00) || (match wordSpec q.1 with | some r => r.keep | none => false) }

/-- A carrier operation in progress is cut (R242). An activation write leaves its copy invalid or unchanged, and nothing says which
(R551). -/
def carCut (s : State) : State :=
  let s := match s.upd.op with
    | .activate _ _ _ _ 1 =>
      let b := (Config.fresh64 s.free).getLsbD 0
      let s := { s with free := s.free + 1 }
      if b then eraseSector s (1 - s.upd.copy) else s
    | _ => s
  s.updUpd fun u => { u with op := .none, waiting := [] }

/-- The units that every restart resets: cores, loop engine, executive (R225). -/
def resetExecutive (s : State) : State :=
  let s := loopsReset { s with cores := Vector.replicate 8 Core.reset }
  let s := busReset s
  { s with
    role := .solo
    prog := none
    mem := { s.mem with stq := [], dirty := [] }
    links := s.links.map fun l => { l with last := none, up := none, hist := [], miss := [], fail := 0, restartPrev := false, buf := [] }
    pair := { State.reset.pair with lanes := s.pair.lanes }
    join := State.reset.join
    host := { State.reset.host with ip := s.ret.j.ip, mask := s.ret.j.mask, gw := s.ret.j.gw }
    evr := { s.evr with toggle := Vector.replicate 8 false }
    exch := Exch.idle
    trust := { s.trust with imgM := [], signer := none } }

/-- The rest of the module, at a level-2 restart, a power-up or a power return. -/
def resetModule (s : State) : State :=
  let r := State.reset
  let s := dioReset s true
  { s with
    enc := { r.enc with on := true, ports := Vector.ofFn fun (k : Fin 4) =>
      { r.enc.ports[k] with a := s.enc.ports[k].a, b := s.enc.ports[k].b, vsel24 := s.enc.ports[k].vsel24 } }
    upd := { r.upd with car := s.upd.car }
    trust := { s.trust with execMeas := [] }
    power := { s.power with wake := 0, wakeTs := 0 } }

/-- The volatile copies of the journals and the executive's state are those of the last APPLIED record; the journal lines of a SEALED
record stand at once, its memory lines at step 8 (Assumption 13). An entry that is OPEN, or whose HCRC is not valid, is dropped (R211). No tick is
known to be durable until the recovery (R217). -/
def retAtRelease (s : State) : State :=
  s.updRet fun r =>
    let dir := r.dir.filter fun d => decide (d.st ≠ .open_) && d.valid
    let top := dir.getLast?.bind Rec.body
    let j := match top with | some b => b.j | none => r.jd
    let x := match top with | some b => b.x | none => r.xd
    { r with dir := dir, j := j, jd := j, jb := j, x := x, xd := x, mergeFrom := none, durTick := 0, durTs := 0, resv := 0, acks := [] }

/-- Cedar service begins: the first Cedar edge falls 100 µs later, and its edges count from 0 (R226, R231). The words that the image sets at
step 7 hold their reset values until then (R294, R317, R451, R521). -/
def cedarBegin (s : State) : State :=
  let s := dioConfig s configReset
  { s with mode := .cedar
           tick := { s.tick with e0 := s.now + 10000, k := 0, t := 250, n := 0, phase := .none, seqOn := true, armed := false, void_ := false,
                                 prevVoid := false, first := false, newprog := false, takeover := false, edited := false, forced := false } }

/-- POWERUP and the SAFE flag at a start of kind 1 or 5 (R501, R504). -/
def escAtPower (s : State) (kind : Nat) : State :=
  if kind = 1 ∨ kind = 5 then s.updEsc fun e => { e with powerup := e.powerup + 1, safe := false, safeCause := 0 } else s

/-- What a start does to the carrier record: PROT ends, a start of kind 1, 2 or 5 releases the update, an interrupted operation is to
be recovered (R567 to R570). -/
def carAtStart (s : State) (kind : Nat) : State :=
  let s := if (car s).prot then carRec s fun c => { c with prot := false } else s
  let s := if kind = 3 ∨ kind = 4 then s else updRelease s 5
  if (car s).opkind = 0 then s.updUpd fun u => { u with recovering := false } else recoverBegin s

/-- The hold-up bank is charged and L+ has been present for 10 ms: the module leaves RESET. The kind of a restart is the ladder's
decision (R500). -/
def execResetRelease (bankMv : Nat) (at_ : Nat) (s : State) : Answer :=
  let s := setNow s at_
  .next (
    if s.mode ≠ .reset ∨ !s.power.present ∨ s.now < s.power.since + 1000000 ∨ bankMv < 35500 then s
    else
      let s := retAtRelease s
      let q := if s.start.kind = 0 then restartLevel s else (clearCapture (escCheck s), 0)
      let kind := if q.2 = 0 then s.start.kind else if q.2 = 1 then 3 else 2
      let s := wordsRestart (escAtPower q.1 kind) kind
      let s := resetExecutive (carCut s)
      let s := if kind = 3 then s else resetModule s
      let s := hostAnew (evrAtRelease s)
      let s := bump (cedarBegin s) K.SYS_START_CNT
      let s := { s with start := { step := if kind = 3 then .exec else .boot, kind := kind, began := if kind = 1 then 0 else s.now
                                   source := 1, reason := 0, served := false, gap := none, roleTs := 0, cold := none } }
      rtcOffReport (carAtStart s kind))

/-! ## Holds (R234) -/

/-- The start cannot be completed: the module holds in CEDAR. -/
def hold (s : State) (reason : Nat) : State :=
  ev (s.updStart fun q => { q with step := .hold, reason := reason }) 0x0006 (p4 reason ++ p4 s.start.source)

/-! ## Boot records (R550, R552) -/

/-- A boot-record copy. -/
def bootCopy (s : State) (i : Nat) : List Byte := carBytes s (65536 * i) 32
/-- The copy is valid. -/
def bootValid (b : List Byte) : Bool :=
  decide (fld b 0 4 = 0x52424C56) && decide (fld b 4 1 ≤ 1) && decide (crc32 (b.take 0x1C) = fld b 0x1C 4)

/-- Both copies are read and the valid one with the higher SEQ is chosen; none where neither is valid. -/
def bootChoose (s : State) : State × Bool :=
  let a := bootCopy s 0
  let b := bootCopy s 1
  let va := bootValid a
  let vb := bootValid b
  let bad := fun (s : State) (i : Nat) => ev (orw s K.UPD_STATUS 0x10) 0xD006 (p4 i)
  let pick := fun (s : State) (i : Nat) (c : List Byte) => s.updUpd fun u => { u with active := fld c 4 1, brSeq := fld c 8 8, copy := i }
  if va && vb then (if fld a 8 8 < fld b 8 8 then pick s 1 b else pick s 0 a, true)
  else if va then (bad (pick s 0 a) 1, true)
  else if vb then (bad (pick s 1 b) 0, true)
  else (s.updUpd fun u => { u with active := 0xFF, brSeq := 0, copy := 0 }, false)

/-- A hold that the boot ROM provides (Table 7-7). -/
def holdRom (s : State) (reason : Nat) : State := hold (s.updStart fun q => { q with source := 1 }) reason

/-- Step 3, and the read of the boot records at a start of kind 3 or 4 (R225, R552), where another slot makes it a level-2 restart. `ok` says
that no carrier read failed twice (R228). -/
def execBootRecordChoose (ok : Bool) (at_ : Nat) (s : State) : Answer :=
  let s := setNow s at_
  .next (
    if s.start.step ≠ .boot then s
    else if !(carrierOk s) then holdRom s 1
    else if !ok then hold s 4
    else
      let q := bootChoose s
      if !q.2 then holdRom q.1 2
      else if s.start.kind ≠ 3 ∧ s.start.kind ≠ 4 then q.1.updStart fun r => { r with step := .exec }
      else if q.1.upd.active ≠ q.1.upd.booted then dueRestart q.1 .level2
      else q.1.updStart fun r => { r with step := .program, source := 2 })

/-! ## The executive (R226 steps 4 and 5) -/

/-- The checks of codes 1 to 5 for the header, the directory, EXEC and the signature, and MEAS16 of the boot record (R551, R562). -/
def execOk (s : State) (slot : Nat) : Bool :=
  contFormat s slot && measOk s slot (fun e => decide (e.id = 0x01)) && fwSigOk s slot && (ownerOf s slot).isSome &&
    decide (s.trust.rollback ≤ fld (contHeader s slot) 0xC 1) && decide (slice (bootCopy s s.upd.copy) 0x10 12 = (contMeas s slot).take 12)

/-- Step 4: the executive has been read and is verified. -/
def execExecVerify (ok : Bool) (at_ : Nat) (s : State) : Answer :=
  let s := setNow s at_
  .next (
    if s.start.step ≠ .exec ∨ s.start.kind = 3 then s
    else if !ok then hold s 4
    else if !(execOk s s.upd.active) then hold s 3
    else
      let s := s.updStart fun r => { r with step := .program, source := 2 }
      let s := { s with upd := { s.upd with booted := s.upd.active }
                        trust := { s.trust with execMeas := (((contDir s s.upd.active).find? fun e => decide (e.id = 0x01)).map SectE.meas).getD [] } }
      pfCheck s)

/-- A start of kind 3: the executive's code is measured again; `ok` says that it agrees. The read of the boot records follows (R225); a mismatch
is a second decision of the ladder, at entry level 2 (R500). -/
def execExecRemeasure (ok : Bool) (at_ : Nat) (s : State) : Answer :=
  let s := setNow s at_
  .next (
    if s.start.step ≠ .exec ∨ s.start.kind ≠ 3 then s
    else if !ok then secondDecision s
    else s.updStart fun r => { r with step := .boot })

/-! ## The program (R226 steps 6 and 7) -/

/-- The newest record that a recovery finds: the SEALED one, or the APPLIED one of the highest tick (R211). -/
def lastRec (s : State) : Option Rec :=
  match s.ret.dir.find? fun r => decide (r.st = .sealed) && r.body.isSome with
  | some r => some r
  | none => s.ret.dir.foldl (fun (m : Option Rec) (r : Rec) =>
      if r.st ≠ .applied then m else match m with | none => some r | some q => if q.tick ≤ r.tick then some r else m) none

/-- The exchange record names the starting image, and the boot records its slot (R180, R212). -/
def resumes (s : State) (g : Image) : Bool :=
  match s.ret.j.exr with | some e => decide (e.progid = g.progid) && decide (e.slot = s.upd.active) | none => false

/-- Reason of a cold start (R212): 1 EMPTY, 2 IMAGE, 3 COMMAND; 0 for a start from retained state. Without an APPLIED record the reason is EMPTY,
also where the command stands (R229). -/
def coldReason (s : State) (g : Image) : Nat :=
  match lastRec s with
  | none => 1
  | some r => if s.ret.j.cold then 3 else if resumes s g ∨ r.progid8 = padTo 8 (g.progid.take 8) then 0 else 2

/-- The executive's retained state of a cold start: empty but for the epoch (R213, R377). -/
def coldExec (s : State) : State := s.updRet fun r => { r with x := { ExecRet.reset with epoch := r.x.epoch } }

/-- The retained LOOP and TUNE words stand at a start: it is no cold start, and the image is the one of the retained state (R341). -/
def wordsStand (s : State) (g : Image) : Bool :=
  decide (coldReason s g = 0) && (match lastRec s with | some r => decide (r.progid8 = padTo 8 (g.progid.take 8)) | none => false)

/-- A start that resumes an exchange: the new image's loop configuration sets every word (R341). The loops' records are the retained ones; the end
of the map judges them (Assumption 63). -/
def wordsAnew (s : State) (g : Image) : State :=
  let l := s.ret.x.loops
  let s := (dioConfig (loopWordsReset s) configReset).updRet fun r => { r with x := { r.x with loops := r.x.loops.map fun q => q.setState 0 } }
  (applyWords s g.words (fun _ => false) false).1.updRet fun r => { r with x := { r.x with loops := l } }

/-- Steps 6 and 7. -/
def execProgramLoad (ok : Bool) (at_ : Nat) (s : State) : Answer :=
  let s := setNow s at_
  .next (
    if s.start.step ≠ .program then s
    else if !ok then hold s 4
    else
      let slot := s.upd.active
      let g := parseImage s slot
      if !(measOk s slot fun _ => true) || (ownerOf s slot).isNone || !(admitOk s g) then hold s 5
      else if s.ret.j.hold then hold s 7
      else
        let s := if coldReason s g = 0 then s else coldExec s
        let keeps := wordsStand s g
        let s := { s with prog := some g, trust := { s.trust with imgM := g.m, signer := ownerOf s slot }
                          mem := { s.mem with bank := Vector.replicate 8 false } }
        let s := joinWords (placeCode s g.code fun _ => false) g
        let s := if keeps || decide (coldReason s g ≠ 0) then (applyWords (dioConfig s configReset) g.words (fun _ => keeps) false).1 else wordsAnew s g
        s.updStart fun r => { r with step := .recover })

/-! ## Recovery (R211 to R214) -/

/-- MRAM line number of a journal line. -/
def jLine (i copy : Nat) : Nat := jLine0 + 8192 * copy + i
/-- A line is rebuilt and rewritten (R211); source 1 parity, 2 copy. -/
def rebuilt (s : State) (line src : Nat) : State := ev (orw (bump s K.RET_REBUILD_CNT) K.RET_STATUS 4) 0x3003 (p4 line ++ p4 src)

/-- Recovery fails at a line (R214). -/
def recFail (s : State) (line : Nat) : State := hold (evFree (orw s K.RET_STATUS 0x20) 0x3006 (p4 line) []) 6

/-- Failed lines of a list that are not alone in their stripe of 16. -/
def stripeLost (bad : List Nat) : Option Nat := bad.find? fun l => bad.any fun m => decide (m ≠ l) && decide (m / 16 = l / 16)

/-- A SEALED record is applied (R211): its lines go to their destinations, with copy B for a journal line. The first failing line ends the
recovery. -/
def applySealed (s : State) : State × Option Nat :=
  match s.ret.dir.find? fun r => decide (r.st = .sealed) && r.body.isSome with
  | none => (s, none)
  | some r =>
    match r.body with
    | none => (s, none)
    | some b =>
      let s := mramRead s fun o => decide (0x800000 ≤ o) && decide (o < 0xC00000) && (recLines r).contains ((o - 0x800000) / 64)
      let bad := (recLines r).filter fun l => s.ret.badLog.contains l
      match bad.find? fun l => s.ret.badLog.any fun m => decide (m ≠ l) && decide (m / 16 = l / 16) with
      | some l => (s, some (131072 + l))
      | none =>
        let s := bad.foldl (fun (s : State) (l : Nat) => rebuilt s (131072 + l) 1) s
        let s := (writeHome s b).updRet fun q => { q with
          badLog := q.badLog.filter fun l => !(bad.contains l)
          dir := q.dir.map fun d => if d.st = .sealed then { d with st := .applied, body := none } else d }
        (ev s 0x3004 (p8 r.tick ++ p4 r.nlines), none)

/-- The home image and the journals are read (R211). -/
def readBack (s : State) : State × Option Nat :=
  let s := mramRead s fun o => decide (o < 0x800000) || (decide (0xC40000 ≤ o) && decide (o < 0xD40000))
  match stripeLost s.ret.badHome with
  | some l => (s, some l)
  | none =>
    match s.ret.badJourn.find? fun b => s.ret.badJourn.contains (b.1, 0) && s.ret.badJourn.contains (b.1, 1) with
    | some b => (s, some (jLine b.1 0))
    | none =>
      let s := s.ret.badHome.foldl (fun (s : State) (l : Nat) => rebuilt (s.updRet fun q => q.rebuildLine l) l 1) s
      let a := s.ret.badJourn.filter fun b => decide (b.2 = 0)
      let s := a.foldl (fun (s : State) (b : Nat × Nat) => rebuilt s (jLine b.1 0) 2) s
      (s.updRet fun q => { q with badHome := [], badJourn := q.badJourn.filter fun b => decide (b.2 ≠ 0) }, none)

/-- Home offset from which the shared area is kept. -/
def homeShared : Nat := 0x100000

/-- Memories as the home image gives them; instruction banks stand, the rest of the shared SRAM is 0. -/
def loadHome (s : State) : State :=
  let ib := cellFilter (fun a => decide (0x02000000 ≤ a) && decide (a < 0x10000000)) s.mem.cells
  let lo := (s.ret.home.filter fun c => decide (c.1 < homeShared)).map fun c => (0x01000000 + c.1, c.2)
  let hi := (s.ret.home.filter fun c => decide (homeShared ≤ c.1) && decide (c.1 < 64 * execLine0)).map fun c =>
    (0x10000000 + (c.1 - homeShared), c.2)
  s.updMem fun m => { m with cells := lo ++ ib ++ hi, stq := [], single := [], double := [], failed := [], dirty := [] }

/-- The bytes of the executive's retained state in the home image. -/
def execHome (x : ExecRet) : List Host.Cell :=
  (xChangedFromZero x).flatMap fun i => cellWrite 0 [] (64 * (execLine0 + i)) (xBytes x i)
where
  /-- Lines that can hold anything but zeros. -/
  xChangedFromZero (x : ExecRet) : List Nat :=
    (List.range 49) ++ ((List.range 168).map (49 + ·)) ++ ((List.range (min x.changes.length 807)).map (217 + ·)) ++ (List.range 1024).map (1024 + ·)

/-- The home image as the memories and the executive's retained state give it. -/
def homeOf (s : State) : List Host.Cell :=
  ((s.mem.cells.filter fun c => decide (0x01000000 ≤ c.1) && decide (c.1 < 0x01100000)).map fun c => (c.1 - 0x01000000, c.2)) ++
    ((s.mem.cells.filter fun c => decide (0x10000000 ≤ c.1) && decide (c.1 < 0x106C0000)).map fun c => (c.1 - 0x10000000 + homeShared, c.2)) ++ execHome s.ret.x

/-- A cold start begins: every directory entry is OPEN (R229). -/
def coldMark (s : State) (reason : Nat) : State :=
  (s.updRet fun q => { q with dir := q.dir.map fun d => { d with st := .open_, body := none } }).updStart fun q => { q with cold := some reason }

/-- The cold record (R213). -/
def coldRec (s : State) (g : Image) : Rec :=
  let r : Rec := { tick := 0, first := 0, edgeTs := s.now, start := s.ret.logNext, nlines := 0, progid8 := padTo 8 (g.progid.take 8), paired := false,
                   cold := true, merged := false, hcrc := 0, st := .applied, tags := [], body := none, mirror := false, began := s.now }
  { r with hcrc := r.crc }

/-- A cold start (R212, R213, R229): memories from INIT, the home image and its parity, and the record with COLD = 1. The journals stay, but for the
command. -/
def coldStart (s : State) (g : Image) (reason : Nat) : State :=
  let s := ev (orw s K.RET_STATUS 1) 0x3005 (p4 reason)
  let s := s.updMem fun m => { m with cells := cellFilter (fun a => decide (0x02000000 ≤ a) && decide (a < 0x10000000)) m.cells
                                      stq := [], single := [], double := [], failed := [], dirty := [] }
  let s := initMemory s g
  let s := s.updRet fun q =>
    let home := homeOf s
    { q.writeJ { q.jd with cold := false } with
      home := home, homePar := parityOf home, badHome := [], j := { q.j with cold := false }, xd := q.x, durTick := 0, durTs := s.now }
  addRec { s with tick := { s.tick with lastCold := true }, start := { s.start with cold := none } } (coldRec s g)

/-- The exchange record at a start (R180, R571). Tick n is not retained: the migration ticks of the exchange count from this start (Assumption 125).
A cold start, which keeps the record (R213), leaves nothing of the map to be executed (Assumption 63). -/
def exchangeResume (s : State) (g : Image) (cold : Bool) : State :=
  match s.ret.j.exr with
  | none => s
  | some e =>
    if resumes s g then
      let s := if cold then s.updX 1 fun x => { x with mapEntry := ((g.migrate.map Migrate.entries).getD []).length, mapOfs := 0 } else s
      s.updExch fun _ => { Exch.idle with st := 4, slot := e.slot, image := some g, written := true }
    else
      let s := jDirect (s.updJ 1 fun j => { j with exr := none })
      ev (orw s K.EXEC_STATUS 2) 0x1012 e.progid

/-- A start from retained state: the last record's tick is the durable one. -/
def warmStart (s : State) (g : Image) (last : Rec) : State :=
  let s := loadHome { s with tick := { s.tick with lastCold := false } }
  exchangeResume (s.updRet fun q => { q with durTick := last.tick, durTs := last.edgeTs }) g false

/-- Step 9 begins; the words of the join act from here on (R396). -/
def roleBegin (s : State) : State :=
  let s := s.updStart fun q => { q with step := .role, roleTs := s.now }
  let s := s.updJoin fun j =>
    { j with on := rb s K.PAIR_J_ENABLE 0, policy := rn s K.PAIR_J_POLICY, lim := rn s K.PAIR_JX_LIM, quad := rb s K.PAIR_QUAD 0 }
  if jOn s then s.updJoin fun j => { j with st := 1, master := decide (jMember s = 0), got := false } else s

/-- Step 8: the retained state is recovered, or the start is cold. A cold start takes two of these commands: the first marks every directory
entry OPEN, the second writes the home image and the cold record (R229). -/
def execRecover (at_ : Nat) (s : State) : Answer :=
  let s := setNow s at_
  .next (
    match s.start.step, s.prog with
    | .recover, some g =>
      let after := fun (s : State) => roleBegin (jDirect (panelSnapshot (panelAtStart (forcesCheck s))))
      match s.start.cold with
      | some r => after (exchangeResume (coldStart s g r) g true)
      | none =>
        if s.ret.j.cold then coldMark s (coldReason s g)
        else
          match applySealed s with
          | (s, some l) => recFail s l
          | (s, none) =>
            match lastRec s with
            | none => coldMark s 1
            | some last =>
              match readBack s with
              | (s, some l) => recFail s l
              | (s, none) =>
                let r := coldReason s g
                if r = 0 then after (warmStart s g last) else coldMark s r
    | _, _ => s)

/-! ## The role (R369, R396) -/

/-- The Pearl is to be taken at the first edge as ACTIVE, with cause START. -/
def takeAtStart (s : State) : State :=
  if s.ret.x.incomplete then { s with role := .syncing } else entitle { s with role := .syncing } 1 s.now

/-- Row 3 of Table 12-4: this module takes the Pearl; both set PREFEQ where SERIAL decides. -/
def prefers (s : State) (hb : Hb) : Bool × Bool :=
  let mine := if rb s K.PAIR_PREF 0 then 1 else 0
  let theirs := if hb.flags.testBit 1 then 1 else 0
  if hb.durable ≠ s.ret.durTick then (decide (hb.durable < s.ret.durTick), false)
  else if mine ≠ theirs then (decide (mine = 0), false)
  else (decide (Config.moduleSerial.toNat < hb.serial), true)

/-- The role at the present instant of step 9, by Table 12-4; none while the module waits. -/
def roleNow (s : State) (peer9 : Bool) : Option State :=
  if !(sOn s) then some s
  else
    let elapsed := decide (s.start.roleTs + leaseSpan s ≤ s.now)
    let witness := match s.pair.witness with | some w => decide (s.start.roleTs ≤ w.1) | none => false
    match s.pair.peer with
    | some hb =>
      if hb.role = 1 then some { s with role := .syncing }
      else if peer9 then
        let q := prefers s hb
        let s := if q.2 then orw s K.PAIR_STATUS 0x200 else s
        some (if q.1 then takeAtStart s else { s with role := .syncing })
      else if (hb.state = 1 ∨ hb.state = 2) ∧ (reachable s ∨ !elapsed) then none
      else if elapsed then some (orw { s with role := .syncing } K.PAIR_STATUS 0x80) else none
    | none =>
      if !elapsed then none
      else if !(reachable s) ∧ !witness then some (takeAtStart s)
      else some (orw { s with role := .syncing } K.PAIR_STATUS 0x80)

/-- Reason of 16#6015: 1 timeout, 2 member, 3 image, 4 period. -/
def joinRefusal (s : State) : Nat :=
  match s.join.peer with
  | none => 1
  | some j =>
    if j.member = jMember s ∨ j.member = 0xFF then 2
    else if j.progid8 ≠ peerProg s ∨ j.peerProg ≠ progid8 s then 3
    else if j.period ≠ periodT s then 4
    else 1

/-- The join at the present instant of step 9; none while the module waits (R396, R406). -/
def joinNow (s : State) : Option State :=
  if s.join.st ≠ 1 then some s
  else if s.join.got && (match s.join.peer with | some j => j.flags.testBit 0 | none => false) then
    some (s.updJoin fun j => { j with st := 2, missed := 0 })
  else if s.start.roleTs + 10000000 ≤ s.now then
    let r := joinRefusal s
    let s := if r = 3 then orw s K.PAIR_J_STATUS 4 else s
    let s := ev (s.updJoin fun j => { j with st := 3, stale := true }) 0x6015 (p4 r)
    some (if !(inQuad s) ∧ s.join.policy = 0 then s.updJoin fun j => { j with safeDue := true } else s)
  else none

/-- Step 9. `peer9` says that the partner has reached step 9 too, which its heartbeat does not show. -/
def execRoleAtStart (peer9 : Bool) (at_ : Nat) (s : State) : Answer :=
  let s := setNow s at_
  .next (
    if s.start.step ≠ .role then s
    else match joinNow s with
      | none => s
      | some s => match roleNow s peer9 with
        | none => s
        | some s => s.updStart fun q => { q with step := .ready, served := false })

/-! ## Wake (R238) -/

/-- A start of kind 4 begins. -/
def wakeStart (s : State) : State :=
  let s := ev s 0x0008 (p4 s.power.wake ++ p8 s.power.wakeTs)
  let h := s.host
  let s := resetExecutive { s with power := { s.power with dorm := none, dormStopped := false } }
  let s := bump (cedarBegin (retAtReleaseKeep s)) K.SYS_START_CNT
  let s := { s with host := { h with
    sess := Vector.ofFn fun (i : Fin 8) => { h.sess[i] with x := s.ret.j.hdrs[i].next, held := [] }, ready := [], jobs := [], done := [], hellos := [] } }
  let s := { s with enc := { s.enc with on := true }
                    start := { step := .boot, kind := 4, began := s.now, source := 2, reason := 0, served := false, gap := none, roleTs := 0, cold := none } }
  carAtStart s 4
where
  /-- The acknowledgement of a WAKE stays, and with it what its session holds. -/
  retAtReleaseKeep (s : State) : State := (retAtRelease s).updRet fun r => { r with acks := s.ret.acks }

/-- In DORMANT with a source triggered, the module wakes. -/
def wakeCheck (s : State) : State :=
  if s.mode = .dormant ∧ s.power.wake ≠ 0 ∧ s.power.pf.isNone then wakeStart s else s

/-- A wake source triggers: the module wakes from DORMANT (R238). An input change or alarm that its own command has noted wakes it
here too. DESIGN CHOICE (log 119). -/
def execWakeSource (bit : Fin 10) (at_ : Nat) (s : State) : Answer := .next (wakeCheck (wakeMark (setNow s at_) bit false))

/-! ## Power loss (R240 to R243) -/

/-- L+ has been absent for 50 µs: the power-fail sequence begins, the watchdog stops (R489), and a start is cut short (R240 to R242). -/
def execPowerFail (busy : BusBusy) (at_ : Nat) (s : State) : Answer :=
  let s := setNow s at_
  .next (
    if s.mode = .off ∨ !s.power.present ∨ s.power.pf.isSome then s
    else
      let runs := ticking s.mode
      let s := s.updPower fun p => { p with present := false }
      if s.mode = .reset then s
      else
        let s := (s.updPower fun p => { p with pf := some (s.now, runs) }).updWdg fun w => { w with running := false, restartDue := false }
        if runs then haltAll (stopOutputs (panelInterrupt s 1) busy)
        else if s.mode = .cedar then carCut { lateEvents { s with tick := { s.tick with seqOn := false } } with start := { s.start with step := .reset } }
        else s)

/-- The power-fail sequence ends in RESET; 16#0002 is the last record of the run. `back` is the instant at which L+ became present
again. -/
def execPowerFailEnd (back : Option Nat) (at_ : Nat) (s : State) : Answer :=
  let s := setNow s at_
  .next (
    match s.power.pf with
    | none => s
    | some (t, _) =>
      let s := haltAll s
      let s := evrDrain (ev s 0x0002 (p8 t ++ p4 ((s.now - t) / 100)))
      let s := dioStop (resetBegin s)
      { s with start := { s.start with kind := 5 }
               power := match back with
                 | some b => { s.power with present := true, since := b }
                 | none => s.power })

end Sys2Proof.Machine
end

