-- ==== Sys2Proof/Machine/Host.lean ====
section
/-! DEFINITION. The host interface: sessions, the order of requests, every request kind (R208 to R210, R522 to R547), and the module's other
answers on the network. -/

namespace Sys2Proof.Machine

/-! ## Request kinds (R533, R563) -/

/-- Kind of a request. -/
def reqKind : Req → Nat
  | .read .. => 0x01 | .write .. => 0x02 | .edit .. => 0x03 | .forceSet .. => 0x04 | .forceRelease .. => 0x05 | .close => 0x10 | .auth .. => 0x11
  | .restart => 0x20 | .coldStart => 0x21 | .cedarHold .. => 0x22 | .dormant => 0x23 | .wake => 0x24 | .safeEnter => 0x25
  | .safeRelease => 0x26 | .exchange .. => 0x30 | .exchangePair .. => 0x30 | .pairSwap => 0x31 | .tuneStart .. => 0x40 | .tuneStop .. => 0x41
  | .tuneApply .. => 0x42 | .captureStart .. => 0x43 | .captureRelease => 0x44 | .supBaseline .. => 0x45 | .updOpen .. => 0x50
  | .updBlock .. => 0x51 | .updVerify => 0x52 | .updClose => 0x53 | .activate .. => 0x54 | .identity => 0x55 | .attest .. => 0x56
  | .ownerEnroll .. => 0x57 | .ownerRevoke .. => 0x58 | .rollbackAdvance .. => 0x59

/-- A privileged kind; OWNER_ENROLL has its own rule (R559). -/
def privKind (k : Nat) : Bool :=
  k = 3 || k = 4 || k = 5 || (decide (0x20 ≤ k) && decide (k ≤ 0x54)) || k = 0x58 || k = 0x59
/-- A kind that changes no state. -/
def roKind (k : Nat) : Bool := k = 1 || k = 0x55 || k = 0x56
/-- A kind that is executed in spare time (R536). -/
def spareKind (k : Nat) : Bool := k = 1 || k = 0x10 || k = 0x11
/-- A kind of an update session (R569). -/
def updKind (k : Nat) : Bool := decide (0x50 ≤ k) && decide (k ≤ 0x54)

/-! ## What the module's state and role serve (R233, R237, R385) -/

/-- The blocks that DORMANT reads. -/
def dormantBlocks : List Nat := [0x0, 0x1200, 0xC00, 0xE00, 0x1100, 0xF00]

/-- DORMANT serves a request (R237). -/
def dormantServes (i : Req) : Bool :=
  match i with
  | .read blk _ _ _ _ => dormantBlocks.contains blk
  | .write items _ => items.all fun w => decide (w.blk.toNat * 65536 + w.word.toNat = K.POWER_WAKE_CTRL)
  | .attest .. => true
  | .wake => true
  | _ => false

/-- CEDAR serves a request (Table 7-6, R542). -/
def cedarServes (i : Req) : Bool :=
  match i with
  | .write items _ => items.all fun w => decide (w.blk = 0xF00) || decide (w.blk = 0xC00)
  | _ =>
    let k := reqKind i
    k = 1 || k = 0x10 || k = 0x11 || k = 0x20 || k = 0x21 || k = 0x22 || updKind k || k = 0x55 || k = 0x56

/-- Status with which a request is refused before it is executed; OK where it is not. -/
def precheck (s : State) (slot : Fin 8) (i : Req) : Nat :=
  let k := reqKind i
  if s.mode = .cedar ∧ !(cedarServes i) then stCedar
  else if s.mode = .dormant ∧ !(dormantServes i) then stDormant
  else if (s.mode = .run ∨ s.mode = .held) ∧ (s.role = .standby ∨ s.role = .syncing) ∧ !(dormantServes i || updKind k || k = 0x10 || k = 0x11) then stRole
  else if privKind k && !s.ret.j.hdrs[slot].priv then stPriv
  else stOk

/-! ## Reads and writes (R539 to R543) -/

/-- Words of a READ, in order. -/
def readWords (slot : Fin 8) (priv noClr : Bool) (sub : Nat) : Nat → Nat → State → State × List Byte
  | _, 0, s => (s, [])
  | k, n + 1, s =>
    let q := readWord s slot priv noClr k sub
    let r := readWords slot priv noClr sub (k + 1) n q.1
    (r.1, leBytes 4 q.2.toNat ++ r.2)

/-- A READ at one instant: status and body. -/
def readReq (s : State) (slot : Fin 8) (blk word count flags sub : Nat) : State × Nat × List Byte :=
  if count = 0 ∨ 256 < count ∨ 65536 < word + count ∨ 1 < flags ∨ 65536 ≤ blk then (s, stCfg, [])
  else
    let q := readWords slot s.ret.j.hdrs[slot].priv (flags = 1) sub (blk * 65536 + word) count s
    (q.1, stOk, q.2)

/-- Items of a WRITE in order: APPLIED and REJECTED (R542). -/
def writeItems (slot : Fin 8) (priv : Bool) (sub : Nat) : Nat → List WriteItem → State → State × Nat × Nat
  | _, [], s => (s, 0, 0)
  | i, w :: r, s =>
    let q := writeItem s slot slot.val priv (w.blk.toNat * 65536 + w.word.toNat) w.value sub 0
    let t := writeItems slot priv sub (i + 1) r q.1
    (t.1, t.2.1 + (if q.2 = 1 then 2 ^ i else 0), t.2.2 + (if q.2 = 2 then 2 ^ i else 0))

/-- An item changes the network configuration (R524). -/
def netItem (w : WriteItem) : Bool := decide (w.blk = 0xF00) && decide (w.word.toNat ≤ 2)

/-- In DORMANT the executive's retained state is written directly (R191). -/
def retDirect (s : State) : State := if s.mode = .dormant then s.updRet fun r => { r with xd := r.x } else s

/-- A WRITE is applied. -/
def writeReq (s : State) (slot : Fin 8) (seq : Nat) (items : List WriteItem) (sub : Nat) : State :=
  if items = [] ∨ 64 < items.length then finish s slot seq 2 stCfg [] .none false true
  else
    let q := writeItems slot s.ret.j.hdrs[slot].priv sub 0 items s
    let s := if items.any netItem then { q.1 with host := { q.1.host with netWait := some (slot.val, seq) } } else q.1
    let s := retDirect s
    finish s slot seq 2 stOk (leBytes 8 q.2.1 ++ leBytes 8 q.2.2) .none false true

/-! ## AUTH (R531, R561) -/

/-- Index of an authenticating key: an owner slot, or 16 + the place in the host list. -/
def keyIndex (s : State) (key : List Byte) : Option Nat :=
  match ownerIds.find? fun i => s.trust.owners[i].enrolled && !s.trust.owners[i].revoked && decide (s.trust.owners[i].key = key) with
  | some i => some i.val
  | none =>
    match s.mode, s.prog with
    | .cedar, _ => none
    | _, some g => (g.hostKeys.findIdx? fun k => decide (k = key)).map fun i => 16 + i
    | _, none => none

/-- An AUTH fails: counters, events, lockout; the third failure of a session closes it. -/
def authFails (s : State) (slot : Fin 8) (seq : Nat) : State :=
  let ip := s.host.sess[slot].ip
  let s := orw (bump (s.updSess slot fun v => { v with fails := v.fails + 1 }) K.HOST_AUTHFAIL_CNT) K.HOST_STATUS 2
  let s := ev s 0xC003 (p4 slot ++ p4 ip.toNat)
  let l := (s.now :: s.host.authFails).filter fun t => decide (s.now < t + 6000000000)
  let s := { s with host := { s.host with authFails := l } }
  let s := if l.length < 8 then s
    else ev (orw { s with host := { s.host with authFails := [], lockEnd := some (s.now + 6000000000) } } K.HOST_STATUS 0x10) 0xC004 (p4 ip.toNat)
  let s := finish s slot seq 0x11 stAuth [] .none false true
  if 3 ≤ s.host.sess[slot].fails then closeSession s slot 3 else s

/-- AUTH. -/
def authReq (s : State) (slot : Fin 8) (seq : Nat) (key sig : List Byte) : State :=
  if s.host.lockEnd.isSome then finish s slot seq 0x11 stAuth [] .none false true
  else if key.length ≠ 57 ∨ sig.length ≠ 114 then finish s slot seq 0x11 stCfg [] .none false true
  else
    let v := s.host.sess[slot]
    let msg := ascii "BHP-AUTH" ++ leBytes 8 s.ret.j.hdrs[slot].nonce.toNat ++ v.hrand ++ v.mrand
    match keyIndex s key with
    | some i =>
      if v.hrand ≠ [] && Config.ed448Verify key msg sig then
        finish (s.updHdr slot fun h => { h with priv := true, hkey := i }) slot seq 0x11 stOk [] .none false true
      else authFails s slot seq
    | none => authFails s slot seq

/-- CLOSE: the response follows the commit of the tick in which the session closed. -/
def closeReq (s : State) (slot : Fin 8) (seq : Nat) : State :=
  let s := bump s K.HOST_REQ_CNT
  let a : Ack := { tick := commitTick s, slot := slot, seq := seq, kind := 0x10, status := stOk, data := [], after := .none }
  closeSession (addAck s a) slot 1

/-! ## Commands of Phase O -/

/-- DORMANT (R236): the status; OK where entry begins. -/
def dormantCheck (s : State) (slot : Fin 8) : Nat :=
  match s.power.dorm with
  | some d => if d.2.1 = slot.val then stOk else stBusy
  | none =>
    if s.mode ≠ .run ∧ s.mode ≠ .held then stState
    else if s.role ≠ .solo ∨ joined s then stRole
    else stOk

/-- DORMANT entry begins: WAKE_CAUSE is cleared. -/
def dormantBegin (s : State) (slot : Fin 8) (seq : Nat) : State :=
  (startJob s slot seq 0x23).updPower fun p => { p with dorm := some (s.tick.n, slot.val, seq), dormStopped := false, wake := 0 }

/-- DORMANT: one that is acceptable waits for the front of a Phase O; a second request of the same session is answered with the first one's
result. -/
def dormantReq (s : State) (slot : Fin 8) (seq : Nat) : State :=
  let st := dormantCheck s slot
  if st = stOk ∧ s.power.dorm.isNone then s else finish s slot seq 0x23 st [] .none false true

/-- WAKE (R238): acknowledged when the commit of the first RUN tick is durable. During entry it waits until DORMANT is reached. -/
def wakeReq (s : State) (slot : Fin 8) (seq : Nat) : State :=
  if s.mode = .dormant then
    let s := bump (wakeMark s 10 true) K.HOST_REQ_CNT
    let s := { s with host := { s.host with ready := s.host.ready.filter fun r => !(decide (r.1 = slot.val) && decide (r.2.1 = seq)) } }
    let t := s.ret.durTick + 1
    let s := storeResult s { slot := slot, seq := seq, kind := 0x24, status := stOk, tick := t, data := [] }
    let s := jDirect (s.updHdr slot fun h => { h with next := nextOf s slot })
    s.updRet fun r => { r with acks := r.acks ++ [{ tick := t, slot := slot, seq := seq, kind := 0x24, status := stOk, data := [], after := .none }] }
  else if s.power.dorm.isSome then wakeMark s 10 true
  else finish s slot seq 0x24 stState [] .none false true

/-- SAFE_ENTER (R503): the flag is set; the entry follows at the next edge. -/
def safeEnterReq (s : State) (slot : Fin 8) (seq : Nat) : State :=
  finish (s.updJ 1 fun j => { j with esc := { j.esc with safe := true, safeCause := 3 } }) slot seq 0x25 stOk [] .none false true

/-- SAFE_RELEASE (R505). -/
def safeReleaseReq (s : State) (slot : Fin 8) (seq : Nat) : State :=
  if s.mode = .safe then
    let s := s.updJ 1 fun j => { j with esc := { j.esc with safe := false, safeCause := 0, clearPu := j.esc.powerup, clearTs := s.now } }
    finish (ev s 0xB005 (p4 slot)) slot seq 0x26 stOk [] .restart false true
  else finish s slot seq 0x26 stState [] .none false true

/-- EXCHANGE (R176). -/
def exchangeReq (s : State) (slot : Fin 8) (seq sl : Nat) : State :=
  let st := exchangeCheck s slot.val sl
  if st ≠ stOk then finish s slot seq 0x30 st [] .none false true
  else exchangeStart (startJob s slot seq 0x30) sl (some (slot.val, seq)) false

/-- EXCHANGE with the mode PAIR (R387). -/
def exchangePairReq (s : State) (slot : Fin 8) (seq sl : Nat) : State :=
  let st := xpairCheck s slot.val sl
  if st ≠ stOk then finish s slot seq 0x30 st [] .none false true
  else xpairStart (startJob s slot seq 0x30) sl (slot.val, seq)

/-- The result of a request of the tuning unit. -/
def tuneResult (q : State × Nat) (slot : Fin 8) (seq kind : Nat) : State := finish q.1 slot seq kind q.2 [] .none false true

/-- Lines of a batch in the executive's retained state. -/
def batchCost (n : Nat) : Nat := (20 * n + 79) / 64

/-- Result data of a request that is refused: an EDIT has its mask with every status (R538). -/
def refusalData : Req → List Byte
  | .edit _ => List.replicate 8 0
  | _ => []

/-- An EDIT or a force change enters the retained queue of R165 or R170, unless it is refused. -/
def enqueueWork (s : State) (slot : Fin 8) (seq : Nat) (i : Req) : State :=
  let no := fun (st : Nat) (d : List Byte) => finish s slot seq (reqKind i) st d .none false false
  let s' := { s with host := { s.host with ready := s.host.ready.filter fun r => !(decide (r.1 = slot.val) && decide (r.2.1 = seq)) } }
  match i with
  | .edit items =>
    if items = [] ∨ 64 < items.length then no stCfg (refusalData i)
    else if 8 ≤ s.ret.x.edits.length then no stBusy (refusalData i)
    else s'.updX (batchCost items.length) fun x => { x with edits := x.edits ++ [{ slot := slot, seq := seq, items := items }] }
  | .forceSet item => s'.updX 1 fun x => { x with changes := x.changes ++ [{ slot := slot, seq := seq, set := true, item := item }] }
  | .forceRelease item => s'.updX 1 fun x => { x with changes := x.changes ++ [{ slot := slot, seq := seq, set := false, item := item }] }
  | _ => s

/-- A kind that waits in the queue of R165 or R170. -/
def workKind (k : Nat) : Bool := k = 3 || k = 4 || k = 5

/-- Execute a request that no check refuses. A PAIR_SWAP that is acceptable waits for the front of a Phase O. -/
def runReq (s : State) (slot : Fin 8) (seq : Nat) (i : Req) : State :=
  match i with
  | .read blk word count flags sub => let q := readReq s slot blk word count flags sub; finish q.1 slot seq 1 q.2.1 q.2.2 .none true true
  | .write items sub => writeReq s slot seq items sub
  | .close => closeReq s slot seq
  | .auth key sig => authReq s slot seq key sig
  | .restart => finish s slot seq 0x20 stOk [] .restart false true
  | .coldStart => finish (s.updJ 1 fun j => { j with cold := true }) slot seq 0x21 stOk [] .restart false true
  | .cedarHold set => finish (s.updJ 1 fun j => { j with hold := set }) slot seq 0x22 stOk [] .none false true
  | .dormant => dormantReq s slot seq
  | .wake => wakeReq s slot seq
  | .safeEnter => safeEnterReq s slot seq
  | .safeRelease => safeReleaseReq s slot seq
  | .exchange sl => exchangeReq s slot seq sl
  | .exchangePair sl => exchangePairReq s slot seq sl
  | .pairSwap => let st := swapCheck s; if st = stOk then s else finish s slot seq 0x31 st [] .none false true
  | .tuneStart n => tuneResult (tuneStart s n (some slot.val)) slot seq 0x40
  | .tuneStop n => tuneResult (tuneStop s n slot.val) slot seq 0x41
  | .tuneApply n => tuneResult (tuneApply s n) slot seq 0x42
  | .captureStart n sel dec count => tuneResult (captureStart s n sel dec count slot.val) slot seq 0x43
  | .captureRelease => tuneResult (captureRelease s slot.val) slot seq 0x44
  | .supBaseline n => tuneResult (supBaseline s n) slot seq 0x45
  | .updOpen sl resume len => updOpen s slot seq sl resume len
  | .updBlock ofs d => updBlockReq s slot seq ofs d i
  | .updVerify => updVerifyReq s slot seq i
  | .updClose => updCloseReq s slot seq
  | .activate sl mode mig => activateReq s slot seq sl mode mig i
  | .identity => finish s slot seq 0x55 stOk identityBody .none true true
  | .attest c =>
    if c.length ≠ 32 then finish s slot seq 0x56 stCfg [] .none true true
    else finish (bump s K.TRUST_ATTEST_CNT) slot seq 0x56 stOk (attestBody s c) .none true true
  | .ownerEnroll key o sig => ownerEnroll s slot seq key o sig
  | .ownerRevoke o => ownerRevoke s slot seq o
  | .rollbackAdvance step => rollbackAdvance s slot seq step
  | _ => enqueueWork s slot seq i

/-- A request is executed, or refused before it is. -/
def runOne (s : State) (slot : Fin 8) (seq : Nat) (i : Req) : State :=
  let st := precheck s slot i
  if st = stOk then runReq s slot seq i else finish s slot seq (reqKind i) st (refusalData i) .none (roKind (reqKind i)) false

/-- Half lines that a request's own effect takes from the executive reserve (R536). -/
def reqCost : Req → Nat
  | .write items _ => (if items.any netItem then 3 else 0) + (if items.any (fun w => w.blk = 0x600 || w.blk = 0x700) then 2 else 0)
  | .coldStart => 3 | .cedarHold _ => 3 | .safeEnter => 3 | .safeRelease => 3 | .pairSwap => 2
  | .updOpen _ _ _ => 3 | .updBlock _ _ => 6 | .updClose => 3 | .activate _ _ _ => 5
  | _ => 0

/-- Half lines that a queued edit or force change takes when it enters its queue (R201). -/
def workCost : Req → Nat
  | .edit items => 2 * batchCost items.length
  | _ => 2

/-- The request fits the reserve of this tick, or changes no state, or no tick runs. -/
def reqFits (s : State) (slot : Nat) (i : Req) : Bool :=
  direct s || roKind (reqKind i) ||
    (if workKind (reqKind i) then decide (workCost i ≤ resvLeft s) else workFits s slot (reqCost i))

/-- What has to wait once a request waits: its session, and with an edit or a force change every later one of these (R165, R170). -/
def waitsWith (i : Req) (sl : Nat) (wait : List Nat) : List Nat := if workKind (reqKind i) then 8 :: sl :: wait else sl :: wait

/-- Requests that wait for Phase O are executed in the order in which they became executable; a session whose request does not fit the reserve
waits (R201, R536). -/
def runReady (spare : Bool) : List (Nat × Nat × Req) → List Nat → State → State
  | [], _, s => s
  | (sl, seq, i) :: r, wait, s =>
    if h : sl < 8 then
      if wait.contains sl || (workKind (reqKind i) && wait.contains 8) || (spare && !(spareKind (reqKind i))) || !(reqFits s sl i) then
        runReady spare r (waitsWith i sl wait) s
      else runReady spare r wait (runOne s ⟨sl, h⟩ seq i)
    else runReady spare r wait s

/-- READ, AUTH and CLOSE in spare time; outside ticks every request at once. They wait for the queued edits and force changes of their
session. -/
def runSpare (s : State) : State :=
  let queued := (s.ret.x.edits.map Batch.slot) ++ s.ret.x.changes.map ForceChg.slot
  runReady (!(direct s)) s.host.ready queued s

/-! ## Arrival (R209, R528, R535) -/

/-- The queue of R165 or R170 holds a request of a session with this number. -/
def queuedWork (s : State) (slot : Fin 8) (seq : Nat) : Bool :=
  s.ret.x.edits.any (fun b => decide (b.slot = slot.val) && decide (b.seq = seq)) ||
    s.ret.x.changes.any fun b => decide (b.slot = slot.val) && decide (b.seq = seq)

/-- The request with number x becomes executable (R535). An edit or a force change enters its queue at once where the reserve of the tick holds
it, and waits for the Phase O of a later tick where it does not (R201). -/
def becomeExecutable (s : State) (h : ReqHdr) (seq : Nat) (i : Req) : State :=
  let slot := h.slot
  let k := reqKind i
  let q : Resp := { seq := seq, kind := k, ip := h.ip, port := h.port, nonce := h.nonce, key := s.ret.j.hdrs[slot].key, res := none }
  let s := s.updSess slot fun v => { v with x := seq + 1, idleTs := s.now, resp := v.resp ++ [q] }
  let s := if updKind k ∧ (car s).holder = slot.val then s.updUpd fun u => { u with idleTs := s.now } else s
  if queuedWork s slot seq then s
  else if workKind k && reqFits s slot i && !(s.host.ready.any fun r => workKind (reqKind r.2.2)) then runOne s slot seq i
  else { s with host := { s.host with ready := s.host.ready ++ [(slot.val, seq, i)] } }

/-- Held requests with the following numbers become executable in turn. -/
def releaseHeld (slot : Fin 8) : Nat → State → State
  | 0, s => s
  | n + 1, s =>
    let x := s.host.sess[slot].x
    match s.host.sess[slot].held.find? fun q => decide (q.1 = x) with
    | none => s
    | some q =>
      let s := s.updSess slot fun v => { v with held := v.held.filter fun e => decide (e.1 ≠ x) }
      releaseHeld slot n (becomeExecutable s q.2.1 x q.2.2)

/-- A read-only request is executed again after its number has passed (R209). -/
def readAgain (s : State) (h : ReqHdr) (i : Req) : State :=
  let st := precheck s h.slot i
  if st ≠ stOk then sendAtOnce s h (reqKind i) st []
  else match i with
  | .read blk word count flags sub =>
    let q := readReq s h.slot blk word count flags sub
    sendAtOnce q.1 h 1 q.2.1 q.2.2
  | .identity => sendAtOnce s h 0x55 stOk identityBody
  | .attest c => if c.length ≠ 32 then sendAtOnce s h 0x56 stCfg [] else sendAtOnce (bump s K.TRUST_ATTEST_CNT) h 0x56 stOk (attestBody s c)
  | _ => s

/-- A request below e (R209). -/
def pastRequest (s : State) (h : ReqHdr) (e : Nat) (i : Req) : State :=
  let k := reqKind i
  if h.seq + 256 < e then sendAtOnce s h k stTooold []
  else if roKind k then
    match s.host.sess[h.slot].store.find? fun r => decide (r.1 = h.seq) with
    | some r => sendAtOnce (bump s K.HOST_DUP_CNT) h r.2.1 r.2.2.1 r.2.2.2
    | none => readAgain s h i
  else match s.ret.jd.results.find? fun r => decide (r.slot = h.slot.val) && decide (r.seq = h.seq) with
    | some r => sendAtOnce (bump s K.HOST_DUP_CNT) h r.kind r.status r.data
    | none => sendAtOnce s h k stTooold []

/-- A request of an open session, by its number (R535). -/
def sequence (s : State) (h : ReqHdr) (i : Req) : State :=
  let slot := h.slot
  let e := s.ret.jd.hdrs[slot].next
  let x := s.host.sess[slot].x
  let q := h.seq
  if q < e then pastRequest s h e i
  else if e + 16 ≤ q then sendAtOnce (orw s K.HOST_STATUS 8) h (reqKind i) stWindow []
  else if q < x then bump s K.HOST_DUP_CNT
  else if q = x then runSpare (releaseHeld slot 16 (becomeExecutable s h q i))
  else if s.host.sess[slot].held.any (fun r => decide (r.1 = q)) then s
  else s.updSess slot fun v => { v with held := v.held ++ [(q, h, i)] }

/-- The module serves BHP. -/
def serves (s : State) : Bool := !(s.mode = .off || s.mode = .reset)

/-- A request arrives (R528, R535). -/
def arrive (h : ReqHdr) (i : Req) (s : State) : Answer :=
  let s := setNow s h.at_
  .next (
    if !(serves s) then s
    else
      let d := s.ret.j.hdrs[h.slot]
      if !d.open_ || d.nonce ≠ h.nonce then notice s h.ip h.port stNosession
      else if !h.tagOk then evb (orw (bump s K.HOST_MACFAIL_CNT) K.HOST_STATUS 1) 0xC005 (p4 h.ip.toNat)
      else wakeCheck (sequence (s.updSess h.slot fun v => { v with ip := h.ip, port := h.port }) h i))

/-! ## The request rows -/

/-- READ (R539). -/
def execRead (h : ReqHdr) (blk word count flags : Nat) (sub : Nat) (s : State) : Answer := arrive h (.read blk word count flags sub) s
/-- WRITE (R542). -/
def execWrite (h : ReqHdr) (items : List WriteItem) (sub : Nat) (s : State) : Answer := arrive h (.write items sub) s
/-- EDIT (R163). -/
def execEdit (h : ReqHdr) (items : List EditItem) (s : State) : Answer := arrive h (.edit items) s
/-- FORCE_SET (R169). -/
def execForceSet (h : ReqHdr) (item : EditItem) (s : State) : Answer := arrive h (.forceSet item) s
/-- FORCE_RELEASE (R169). -/
def execForceRelease (h : ReqHdr) (item : EditItem) (s : State) : Answer := arrive h (.forceRelease item) s
/-- CLOSE (R532). -/
def execClose (h : ReqHdr) (s : State) : Answer := arrive h .close s
/-- AUTH (R531). -/
def execAuth (h : ReqHdr) (key sig : List Byte) (s : State) : Answer := arrive h (.auth key sig) s
/-- RESTART (R225). -/
def execRestart (h : ReqHdr) (s : State) : Answer := arrive h .restart s
/-- COLD_START (R225). -/
def execColdStart (h : ReqHdr) (s : State) : Answer := arrive h .coldStart s
/-- CEDAR_HOLD (R235). -/
def execCedarHold (h : ReqHdr) (set : Bool) (s : State) : Answer := arrive h (.cedarHold set) s
/-- DORMANT (R236). -/
def execDormant (h : ReqHdr) (s : State) : Answer := arrive h .dormant s
/-- WAKE (R238). -/
def execWake (h : ReqHdr) (s : State) : Answer := arrive h .wake s
/-- SAFE_ENTER (R503). -/
def execSafeEnter (h : ReqHdr) (s : State) : Answer := arrive h .safeEnter s
/-- SAFE_RELEASE (R505). -/
def execSafeRelease (h : ReqHdr) (s : State) : Answer := arrive h .safeRelease s
/-- EXCHANGE (R176). -/
def execExchange (h : ReqHdr) (slot : Nat) (s : State) : Answer := arrive h (.exchange slot) s
/-- EXCHANGE with the mode PAIR (R387). -/
def execExchangePair (h : ReqHdr) (slot : Nat) (s : State) : Answer := arrive h (.exchangePair slot) s
/-- PAIR_SWAP (R386). -/
def execPairSwap (h : ReqHdr) (s : State) : Answer := arrive h .pairSwap s
/-- TUNE_START (R346). -/
def execTuneStart (h : ReqHdr) (n : Nat) (s : State) : Answer := arrive h (.tuneStart n) s
/-- TUNE_STOP (R346). -/
def execTuneStop (h : ReqHdr) (n : Nat) (s : State) : Answer := arrive h (.tuneStop n) s
/-- TUNE_APPLY (R356). -/
def execTuneApply (h : ReqHdr) (n : Nat) (s : State) : Answer := arrive h (.tuneApply n) s
/-- CAPTURE_START (R352). -/
def execCaptureStart (h : ReqHdr) (n : Nat) (sel : List Nat) (dec count : Nat) (s : State) : Answer := arrive h (.captureStart n sel dec count) s
/-- CAPTURE_RELEASE (R352). -/
def execCaptureRelease (h : ReqHdr) (s : State) : Answer := arrive h .captureRelease s
/-- SUP_BASELINE (R358). -/
def execSupBaseline (h : ReqHdr) (n : Nat) (s : State) : Answer := arrive h (.supBaseline n) s
/-- UPD_OPEN (R564). -/
def execUpdOpen (h : ReqHdr) (slot : Nat) (resume : Bool) (len : Nat) (s : State) : Answer := arrive h (.updOpen slot resume len) s
/-- UPD_BLOCK (R565). -/
def execUpdBlock (h : ReqHdr) (ofs : Nat) (data : List Byte) (s : State) : Answer := arrive h (.updBlock ofs data) s
/-- UPD_VERIFY (R562). -/
def execUpdVerify (h : ReqHdr) (s : State) : Answer := arrive h .updVerify s
/-- UPD_CLOSE (R569). -/
def execUpdClose (h : ReqHdr) (s : State) : Answer := arrive h .updClose s
/-- ACTIVATE (R570). -/
def execActivate (h : ReqHdr) (slot mode : Nat) (migrate : Bool) (s : State) : Answer := arrive h (.activate slot mode migrate) s
/-- IDENTITY (R572). -/
def execIdentity (h : ReqHdr) (s : State) : Answer := arrive h .identity s
/-- ATTEST (R573). -/
def execAttest (h : ReqHdr) (challenge : List Byte) (s : State) : Answer := arrive h (.attest challenge) s
/-- OWNER_ENROLL (R559). -/
def execOwnerEnroll (h : ReqHdr) (key : List Byte) (slot : Nat) (sig : List Byte) (s : State) : Answer := arrive h (.ownerEnroll key slot sig) s
/-- OWNER_REVOKE (R559). -/
def execOwnerRevoke (h : ReqHdr) (slot : Nat) (s : State) : Answer := arrive h (.ownerRevoke slot) s
/-- ROLLBACK_ADVANCE (R560). -/
def execRollbackAdvance (h : ReqHdr) (step : Nat) (s : State) : Answer := arrive h (.rollbackAdvance step) s

/-! ## Single words (R541, R542) -/

/-- A READ's word of a session that stands open: what it returns leaves as a value; an RC word is cleared of it (R541). -/
def execRcRead (slot : Fin 8) (blk word : Half) (noClr : Bool) (sub : Nat) (s : State) : Answer :=
  .next (
    if !(serves s) || !s.ret.j.hdrs[slot].open_ || decide (precheck s slot (.read blk.toNat word.toNat 1 0 sub) ≠ stOk) then s
    else
      let k := blk.toNat * 65536 + word.toNat
      let q := readWord s slot s.ret.j.hdrs[slot].priv noClr k sub
      emit q.1 (.value slot k q.2))

/-- One item of a WRITE of a session that stands open, in a state and role that serves it (R233, R237, R385, R542). -/
def execRegisterWrite (slot : Fin 8) (item : WriteItem) (sub : Nat) (s : State) : Answer :=
  .next (
    if !(serves s) || !s.ret.j.hdrs[slot].open_ || decide (precheck s slot (.write [item] sub) ≠ stOk) then s
    else retDirect (writeItem s slot slot.val s.ret.j.hdrs[slot].priv (item.blk.toNat * 65536 + item.word.toNat) item.value sub 0).1)

/-! ## Sessions (R529, R530, R532) -/

/-- The lowest free slot. -/
def freeSlot (s : State) : Option (Fin 8) := slotIds.find? fun i => !s.ret.j.hdrs[i].open_

/-- A session is opened for a HELLO body: header, key, and the reply that follows its durability. -/
def openSession (s : State) (slot : Fin 8) (ip : Word) (port : Half) (body : List Byte) : State :=
  let n := Config.fresh64 s.free
  let nonce : Dword := if n = 0 then 1 else n
  let mrand := padTo 32 (Config.freshBytes (s.free + 1) 32)
  let eph := Config.freshBytes (s.free + 2) 56
  let s := { s with free := s.free + 3 }
  let hrand := body.drop 56
  let key := shake256 32 (ascii "BHP-KEY" ++ Config.x448Shared eph (body.take 56) ++ hrand ++ mrand ++ leBytes 8 nonce.toNat)
  let r := leBytes 1 slot ++ padTo 3 [] ++ leBytes 8 nonce.toNat ++ mrand ++ padTo 56 (Config.x448Public eph) ++ padTo 57 Config.deviceKey ++ padTo 3 []
  let reply := r ++ padTo 114 (Config.ed448Sign (shake256 64 (body ++ r)))
  let s := (addJournal s 1).updHdr slot fun _ =>
    { nonce := nonce, next := 1, open_ := true, priv := false, hkey := 0xFF, key := key, hrand8 := hrand.take 8 }
  let s := s.updSess slot fun v =>
    { x := 1, held := [], ip := ip, port := port, idleTs := s.now, fails := 0, store := [], hrand := hrand, mrand := mrand, reply := reply,
      resp := v.resp }
  let s := ev s 0xC001 (p4 slot ++ p4 ip.toNat)
  addAck s { tick := commitTick s, slot := slot, seq := 0, kind := helloKind, status := stOk, data := [], after := .none }

/-- A HELLO that no open session knows opens one, or is refused. -/
def helloNew (s : State) (ip : Word) (port : Half) (body : List Byte) : State :=
  match freeSlot s with
  | some i => openSession s i ip port body
  | none => notice (orw s K.HOST_STATUS 4) ip port stFull

/-- HELLO messages that wait open their sessions, in order, while the executive reserve holds them (R201). -/
def runHellos : List (Word × Half × List Byte) → State → State
  | [], s => s
  | m :: l, s =>
    if 3 ≤ resvLeft s then runHellos l (helloNew { s with host := { s.host with hellos := l } } m.1 m.2.1 m.2.2) else s

/-- HELLO (R529). A HELLO of an open session gets that session's reply again, once it has left for the first time. -/
def execHello (ip : Word) (port : Half) (body : List Byte) (at_ : Nat) (s : State) : Answer :=
  let s := setNow s at_
  .next (
    if !(serves s) || body.length ≠ 88 then s
    else match slotIds.find? fun i => s.ret.j.hdrs[i].open_ && decide (s.ret.j.hdrs[i].hrand8 = (body.drop 56).take 8) with
      | some i =>
        let waits := s.ret.acks.any fun a => decide (a.slot = i.val) && decide (a.kind = helloKind)
        if waits || s.host.sess[i].reply = [] then s
        else sendBhp s ip port (bhpMessage 2 i s.ret.j.hdrs[i].nonce 0 0 0 s.host.sess[i].reply (some s.ret.j.hdrs[i].key))
      | none =>
        if direct s || (decide (3 ≤ resvLeft s) && s.host.hellos.isEmpty) then helloNew s ip port body
        else { s with host := { s.host with hellos := s.host.hellos ++ [(ip, port, body)] } })

/-- No request of a session has become executable for SESS_TO seconds (R532). -/
def execSessionTimeout (slot : Fin 8) (at_ : Nat) (s : State) : Answer :=
  let s := setNow s at_
  .next (
    if serves s && s.ret.j.hdrs[slot].open_ && decide (s.host.sess[slot].idleTs + 100000000 * rn s K.HOST_SESS_TO ≤ s.now) then closeSession s slot 2
    else s)

/-- 60 s of lockout have passed (R531). -/
def execAuthLockoutEnd (at_ : Nat) (s : State) : Answer :=
  let s := setNow s at_
  .next (match s.host.lockEnd with
    | some t => if t ≤ s.now then { s with host := { s.host with lockEnd := none } } else s
    | none => s)

/-! ## The network (R522 to R525, R545) -/

/-- The next announcement of the shared address leaves, 200 ms after the one before it (R525). -/
def execGratuitousArp (s : State) : Answer :=
  .next (
    if s.host.garp = 0 then s
    else if !(hasPearl s) then { s with host := { s.host with garp := 0 } }
    else
      let s := setNow s s.host.garpAt
      let s := emit s (.eth s.now 1 (rw s K.PAIR_HOSTADDR) [])
      { s with host := { s.host with garp := s.host.garp - 1, garpAt := s.host.garpAt + 20000000 } })

/-- The module answers at an address (R524, R525). -/
def answersAt (s : State) (ip : Word) : Bool :=
  decide (ip = svcAddr) || (decide (ip = s.host.ip) && decide (ip ≠ 0)) || (decide (ip = rw s K.PAIR_HOSTADDR) && decide (ip ≠ 0) && hasPearl s)

/-- An ARP request is answered (R523). -/
def execArpRequest (target sender : Word) (at_ : Nat) (s : State) : Answer :=
  let s := setNow s at_
  .next (if serves s && answersAt s target then emit s (.eth s.now 2 target (leBytes 4 sender.toNat)) else s)

/-- An ICMP echo request is answered (R523). -/
def execIcmpEcho (dst src : Word) (data : List Byte) (at_ : Nat) (s : State) : Answer :=
  let s := setNow s at_
  .next (if serves s && answersAt s dst then emit s (.eth s.now 3 src data) else s)

/-- A datagram is discarded without reply: it does not fit (R523, R528), or the receive queue is full. -/
def execDatagramDiscard (full : Bool) (at_ : Nat) (s : State) : Answer :=
  let s := setNow s at_
  .next (if full && serves s then bump s K.HOST_DROP_CNT else s)

/-- The switch forwards a frame between X10 and X11 whenever L+ is present (R522). -/
def execSwitchForward (port : Fin 2) (frame : List Byte) (at_ : Nat) (s : State) : Answer :=
  let s := setNow s at_
  .next (if s.power.present then emit s (.eth s.now (4 + (1 - port.val)) 0 frame) else s)

/-- An external port gains or loses its link, or renegotiates (R545). -/
def execPortLinkChange (port : Fin 2) (speed : Fin 4) (full : Bool) (at_ : Nat) (s : State) : Answer :=
  let s := setNow s at_
  .next (
    if s.mode = .off then s
    else
      let v := speed.val + (if full && decide (speed ≠ 0) then 4 else 0)
      let w := rn s K.HOST_PORTS
      sn s K.HOST_PORTS (if port = 0 then w / 256 * 256 + v else w % 256 + 256 * v))

/-- The written network configuration takes effect at the first edge after its response (R524). -/
def netApply (s : State) : State :=
  if !s.host.netDue then s
  else
    let j := s.ret.j
    ev { s with host := { s.host with ip := j.ip, mask := j.mask, gw := j.gw, netDue := false } } 0xC011
      (p4 j.ip.toNat ++ p4 j.mask.toNat ++ p4 j.gw.toNat)

end Sys2Proof.Machine
end

