-- ==== Sys2Proof/Machine/Seq.lean ====
section
/-! DEFINITION. The sequencer: tick edges, Phase L, Phase O, the end of a commit, and bit errors (R46 to R63, R76, R77, R193 to R196, R226, R236,
R503, R605). -/

namespace Sys2Proof.Machine

/-- Update the tick. -/
def State.updTick (s : State) (f : Tick → Tick) : State := { s with tick := f s.tick }

/-- Task lists, event tasks and the loop engine work in this tick (Table 2-4): not in a tick after the last one before a handover, and not
while DORMANT is entered. -/
def runsTasks (s : State) : Bool :=
  decide (s.mode = .run) && drives s.role && !s.pair.gate && !(swapHolds s) && s.power.dorm.isNone

/-! ## The edge: inputs -/

/-- What the supplies show at an edge (R220, R246). -/
def supplyEdge (s : State) (env : EdgeEnv) : State :=
  let s := lplusMeasured s env.lplusMv
  let s := sn (sn (sn (sn s K.POWER_M1_MV env.m1Mv) K.POWER_M2_MV env.m2Mv) K.POWER_BANK_MV env.bankMv) K.POWER_VBAK_MV env.vbakMv
  putBit s K.POWER_PRESENT 3 (decide (2500 ≤ env.vbakMv) || (rb s K.POWER_PRESENT 3 && decide (2400 ≤ env.vbakMv)))

/-- A group supply's presence at the edge: a change in the interval of the edge is not in it (R54). -/
def groupAt (s : State) (now : Bool) (ts : Nat) : Bool := if ts < s.tick.edgeTs then now else !now

/-- The input area of the group supplies (R149, Table 2-2). -/
def groupInput (s : State) : State :=
  putArea s 7 0 (leBytes 4 ((if groupAt s s.power.m1 s.dio.m1Ts then 1 else 0) + (if groupAt s s.power.m2 s.dio.m2Ts then 2 else 0)))

/-- MBX_IN0 of a tick (R605). -/
def mbxIn0 (s : State) : Word :=
  let bit := fun (i : Nat) (v : Bool) => if v then 2 ^ i else 0
  let runs := decide (s.mode = .run)
  BitVec.ofNat 32 (bit 0 (runs && s.tick.first) + bit 1 s.tick.lastCold + bit 2 (runs && s.tick.newprog) + bit 3 (drives s.role && s.tick.takeover) +
    bit 4 s.tick.edited + bit 5 s.tick.forced + 256 * s.start.kind)

/-- The mailbox words of a tick, the same for every core (R605). -/
def mbxWords (s : State) : Vector Word 16 :=
  let w := [mbxIn0 s, BitVec.ofNat 32 (roleCode s.role + 256 * s.join.st), BitVec.ofNat 32 s.ret.durTick, BitVec.ofNat 32 (s.ret.durTick / 2 ^ 32),
    rw s K.EXEC_EDIT_CNT, BitVec.ofNat 32 s.ret.j.forces.length]
  Vector.ofFn fun i => w.getD i.val 0

/-- MBX_IN0 to MBX_IN15 of every core are written; what they reported once is over (R605). -/
def mailboxes (s : State) : State :=
  let w := mbxWords s
  let runs := decide (s.mode = .run)
  let s := { s with cores := s.cores.map fun (k : Core) => { k with mbxIn := w } }
  s.updTick fun t => { t with first := t.first && !runs, newprog := t.newprog && !runs, takeover := t.takeover && !(drives s.role), edited := false,
                              forced := false }

/-- A section latched at this edge reports FENCED: every link is FENCED and silent, DO switches off, the buses leave the schedule, and the
Pearl is given up (R272, R375, R378). -/
def fenceStop (s : State) (busy : BusBusy) : State :=
  if drives s.role && (fenceReport s).isSome then sendRelease (busGate (dioAllOff (linksFenced s)) busy) else s

/-- The outputs of the tick before are released at this edge: not where the module holds, or has given the Pearl up (Table 2-4, Table 5-13,
R376, R386). RELEASE reports the last tick of which that holds. -/
def outNote (s : State) : State :=
  let runs := decide (s.mode = .run) && drives s.role && !s.pair.gate && !s.pair.gaveUp && !s.tick.first && !s.tick.newprog &&
    !(swapHolds s && decide ((s.pair.swap.getD 0) + 1 < s.tick.n))
  if runs || exchangeHeldEdge s then s.updPair fun p => { p with outTick := s.tick.n - 1 } else s

/-- The input image of a tick (Table 2-2), the heartbeats and streams, and what the executive does in Phase I (R63). -/
def phaseI (s : State) (env : EdgeEnv) : State :=
  let s := groupInput (dioEdge (outNote (fenceStop s env.busy)) env.doLevel)
  let s := encEdge s
  let s := if swapHolds s && decide ((s.pair.swap.getD 0) + 1 < s.tick.n) then { linksEdge { s with mode := .held } with mode := s.mode } else linksEdge s
  let s := loopsEdge (panelEdge (busEdge s))
  let s := mailboxes s
  let s := if runsTasks s then imposeForces s 0 else s
  lateEvents (netApply (sendStream (sendHeartbeats s)))

/-! ## Edges of CEDAR (R49, R231, R494) -/

/-- An edge of CEDAR: inputs are latched, the outputs stay off. -/
def cedarEdge (s : State) (env : EdgeEnv) : State :=
  let s := if s.tick.k = 0 then wdgStart s else s
  let s := s.updTick fun t => { t with n := t.k, k := t.k + 1, phase := .none, shownN := t.k, shownTs := t.edgeTs }
  let s := lanesEdge (dioEdge (supplyEdge s env) env.doLevel)
  let s := if s.enc.on then encIds.foldl encPortEdge s else s
  lateEvents (netApply (sendHeartbeats (sn s K.ENC_AVALID 0)))

/-! ## Edges of RUN, HELD and SAFE -/

/-- Entry to HELD: task lists stop, GAP is set (R65, R339). -/
def enterHeld (s : State) : State := { dropTasks (loopsGap s false false) with mode := .held }

/-- The SAFE flag, or a cause at this edge: 1 ladder, 2 join, 3 request (Table 18-4). -/
def safeDue (s : State) : Bool := (esc s).safe || s.join.safeDue

/-- Entry to SAFE (R503, R504): in an Onyx pair the Pearl is handed on after a safe burst, and no SAFE frame follows (R375). -/
def enterSafe (s : State) (busy : BusBusy) : State :=
  let s := if (esc s).safe then s else s.updJ 1 fun j => { j with esc := { j.esc with safe := true, safeCause := 2 } }
  let s := dropTasks (loopsGap s true false)
  let s := { (s.updJoin fun j => { j with safeDue := false }) with mode := .safe }
  let s := ev (orw s K.WDG_STATUS 0x10) 0xB004 (p4 (esc s).safeCause)
  let s := if joined s then sendJctrl s 1 s.tick.n else s
  if s.role = .active then { sendRelease (panelQuit (busGate (burstAll (dioAllOff s)) busy)) with role := .syncing } else s

/-- The first edge of the image's period ends Cedar service (R226 step 10, R50, R57, R162, R230). -/
def firstEdge (s : State) : State :=
  let s := sn s K.SYS_START_TIME ((s.tick.edgeTs - s.start.began) / 100)
  let s := ev s 0x0001 (p4 s.start.kind ++ p4 s.start.reason ++ p8 s.tick.edgeTs)
  let gap := if s.tick.lastCold || !(drives s.role) then none else some (sub64 s.tick.edgeTs s.ret.durTs)
  let s := { s with start := { s.start with step := .none, source := 0, served := false, gap := gap }
                    mode := if s.exch.st = 4 ∧ !(esc s).safe then .held else .run
                    dio := { s.dio with cap := 0 } }
  let s := (busForget s).updTick fun t => { t with e0 := t.edgeTs, k := 1, t := periodT s, n := s.ret.durTick + 1, first := true }
  if drives s.role then loopsSnapshot (loopsGap s false true) else s

/-- Timers are rebased on entry to RUN, or to SAFE, from retained state (R162). -/
def rebaseDue (s : State) : State :=
  match s.start.gap with
  | some g => if s.mode = .held then s else rebase (s.updStart fun q => { q with gap := none }) g
  | none => s

/-- An exchange has ended in the Phase O before: RUN goes on with the new program, whose period takes effect at this edge (R50, R178). -/
def newProgramEdge (s : State) : State :=
  if !s.tick.newprog then s
  else
    let s := if periodT s = s.tick.t then s else s.updTick fun t => { t with e0 := t.edgeTs, k := 1, t := periodT s }
    if s.mode = .held then { s with mode := .run } else s

/-- The pair and the join at an edge, before outputs are released (R366, R371, R372, R376, R386, R405, R409). -/
def pairEdge (s : State) (busy : BusBusy) : State :=
  let s := lanesEdge s
  let s := if sReceives s && decide (s.mode = .run) then leaseDeadline s else s
  let s := if leaseDue s s.tick.edgeTs then leaseExpire s busy s.tick.n else s
  let s := if s.mode = .run then pearlEdge s else s
  xpairFormer (xpairActivate (swapEdge (resyncTick s) busy))

/-- The state of the module at an edge of RUN, HELD or SAFE: what the happenings of the tick before lead to. -/
def modeEdge (s : State) (env : EdgeEnv) : State :=
  let s := if s.tick.prevVoid ∧ s.mode = .run then enterHeld s else exchangeEdge (exchangeActivate s)
  let s := pairEdge (newProgramEdge s) env.busy
  let due := safeDue s
  let s := quadStop (joinEdge s) env.busy
  let s := rebaseDue (if due ∧ (s.mode = .run ∨ s.mode = .held) then enterSafe s env.busy else s)
  if s.tick.takeover ∧ drives s.role then busForget { s with dio := { s.dio with cap := 0 } } else s

/-- A tick begins at its edge. -/
def beginTick (s : State) : State :=
  s.updTick fun t => { t with n := t.n + 1, k := t.k + 1, phase := .i, armed := false, prevVoid := t.void_, void_ := false, progOcc := 0 }

/-- An edge of RUN, HELD or SAFE. -/
def runEdge (s : State) (env : EdgeEnv) : State := phaseI (modeEdge (supplyEdge s env) env) env

/-! ## DORMANT (R236) -/

/-- DORMANT is reached: the request's result is written directly and acknowledged, units switch off. -/
def dormantReached (s : State) (n slot seq : Nat) : State :=
  let s := s.updRet fun r => { r with j := r.jd, x := r.xd, resv := 0, acks := r.acks.filter fun a => decide (a.tick ≤ n) }
  let s := { s with mode := .dormant, loop := { s.loop with cap := Cap.idle }, cores := Vector.replicate 8 Core.reset, wdg := { s.wdg with running := false } }
  let s := ev (endJob (encClear s false) (slot, seq) stOk [] .none) 0x0007 (p8 n)
  let s := s.host.ready.foldl (fun (s : State) (q : Nat × Nat × Req) =>
    match q.2.2 with
    | .dormant => if h : q.1 < 8 then dormantReq s ⟨q.1, h⟩ q.2.1 else s
    | _ => s) s
  wakeCheck (runSpare s)

/-- The tick of the request is durable and the sequencer has stopped. -/
def dormantCommit (s : State) : State :=
  match s.power.dorm with
  | some (n, slot, seq) => if s.power.dormStopped ∧ n ≤ s.ret.durTick ∧ s.mode ≠ .dormant then dormantReached s n slot seq else s
  | none => s

/-- Edge n + 1 of DORMANT entry: the sequencer stops, outputs switch off; a panel region in progress completes. -/
def dormantEdge (s : State) (busy : BusBusy) : State :=
  let s := busStop (burstAll (dioAllOff s)) busy
  let s := if panelWorks s ∧ (panelJ s).runR.isSome then s else panelQuit s
  let s := dropTasks (loopsStop s)
  let s := lateEvents (s.updTick fun t => { t with seqOn := false, phase := .none, armed := false })
  dormantCommit (s.updPower fun p => { p with dormStopped := true })

/-! ## The edge -/

/-- The sequencer produces the next edge (R50). -/
def execTickEdge (env : EdgeEnv) (s : State) : Answer :=
  .next (
    if !s.tick.seqOn || s.power.pf.isSome then s
    else
      let s := s.updTick fun t => { t with edgeTs := nextEdge s, now := max t.now (nextEdge s), aligned := false }
      if s.mode = .cedar then
        if s.start.step = .ready ∧ s.start.served ∧ joinGo s then
          let s := firstEdge s
          runEdge (s.updTick fun t => { t with phase := .i, armed := false, prevVoid := false, void_ := false, progOcc := 0 }) env
        else cedarEdge s env
      else if !(ticking s.mode) then s
      else if s.power.dorm.isSome then dormantEdge s env.busy
      else runEdge (beginTick s) env)

/-! ## Phase L (R53, R61) -/

/-- A core at the start of Phase L: the tick entry sequence, and its first due task. -/
def coreStart (s : State) (c : CoreId) : State :=
  let s := s.updCore c fun k =>
    let k := k.mbxDrain
    { k with st := .idle, inEvt := false, resume := false, cyc := 8, c1 := false, c2 := false, used := 0, endTs := 0,
             slots := k.slots.map fun q => { q with rel := 0, held := false } }
  match taskList s c with
  | some _ => startFrom s c 0 8
  | none => s.updCore c fun k => { k with cyc := 0 }

/-- Phase L begins at edge + 2 µs. `arms` says whether the executive arms edge n + 1 in it (R52). -/
def execPhaseLStart (arms : Bool) (s : State) : Answer :=
  .next (
    if s.tick.phase ≠ .i then s
    else
      let s := setNow s (s.tick.edgeTs + 200)
      let s := if runsTasks s then imposeForces s 1 else s
      let s := s.updTick fun t => { t with phase := .l, armed := arms, shownN := t.n, shownTs := t.edgeTs }
      if runsTasks s then coreIds.foldl coreStart (loopsStart { s with sv := { free := 0, queue := [] } }) else s)

/-! ## Phase O (R63, R76, R77) -/

/-- What a core fails the check of R76 at the instant `o` for: bit 0 list not ended, or ended no earlier than in the interval of that
instant; bit 1 event task running; bit 2 stopped by a C2 fault. A core that a C2 fault stopped fails for that alone. Assumption 124. -/
def overrun (k : Core) (o : Nat) : Nat :=
  (if k.st = .aband ∨ (k.st = .run ∧ (!k.inEvt ∨ k.resume)) ∨ (k.st = .idle ∧ o ≤ k.endTs) then 1 else 0) + (if k.st = .run ∧ k.inEvt then 2 else 0) +
    (if k.st = .stopped ∨ k.c2 then 4 else 0)

/-- Cores that fail the check, with their causes. -/
def overruns (s : State) : List (CoreId × Nat) := (coreIds.map fun c => (c, overrun s.cores[c] (phaseOInstant s))).filter fun q => decide (q.2 ≠ 0)

/-- The tick is void (Table 2-7): the cores halt, results in flight are discarded, and each failing core raises a C2 fault unless it raised
its own. -/
def voidTick (s : State) (l : List (CoreId × Nat)) : State :=
  let cause := l.foldl (fun m q => m ||| q.2) 0
  let s := bump (orw s K.TICK_STATUS 1) K.TICK_OVR_CNT
  let s := ev s 0x1001 (p8 s.tick.n ++ p4 (maskOf (l.map fun q => q.1.val)) ++ p4 cause)
  let s := l.foldl (fun (s : State) (q : CoreId × Nat) => if s.cores[q.1].c2 then s else raise s 2 0x1001 (2 ^ q.1.val)) s
  let s := { s with cores := s.cores.map fun (k : Core) =>
    { k with st := .idle, inEvt := false, resume := false, task := { k.task with flight := [], delay := .none },
             evt := { k.evt with flight := [], delay := .none } } }
  s.updTick fun t => { t with void_ := true }

/-- The handling of a C1 fault ends (R498); queued faults go on in arrival order. -/
def endC1 (s : State) : State :=
  match s.wdg.h with
  | some h =>
    if h.cls = 1 then
      let fq := s.wdg.fq
      let s := s.updWdg fun w => { w with h := none, fq := [], qlost := 0, abandon := none }
      fq.foldl (fun (s : State) (f : QFault) => raise s f.cls f.code f.unit) s
    else s
  | none => s

/-- The restart after a fence carries its mark: it is a restart without a fault cause (R378, R500). -/
def fenceMark (h : Handling) (m : RMark) : RMark := if h.cls = 4 ∧ h.code = 0x4007 then .fencing else m

/-- The handling of a fault of the tick before, or of an earlier one, makes the restart due now (R497). -/
def restartNow (s : State) : State :=
  match s.wdg.h with
  | some h => if 2 ≤ h.cls ∧ h.tick < s.tick.n then s.updWdg fun w => { w with restartDue := true, mark := fenceMark h w.mark } else s
  | none => s

/-- The cycles that every core used in the tick (R73): the 8 of the tick entry where no task was due. Where no task list runs, no report
is made. Assumption 124. -/
def usedReport (s : State) : State :=
  coreIds.foldl (fun (s : State) (c : CoreId) =>
    let u := s.cores[c].used
    maxw (sn s (K.TICKk_USED_LAST c) u) (K.TICKk_USED_MAX c) u) s

/-- The ports of the fabric read the output image (R36): 11 links, 9 loop engine, 12 pairing, 13 the others. -/
def outputReads (s : State) : State :=
  match s.prog with
  | none => s
  | some g => (g.areas.filter fun a => decide (a.dir = 1)).foldl (fun (s : State) (a : Area) =>
      eccRange s (areaAddr s a) a.len (if a.code = 3 then 11 else if a.code = 5 then 9 else if a.code = 8 then 12 else 13)) s

/-- Forced outputs are imposed and every output is captured (R55, R63, R172). -/
def captureOutputs (s : State) (busy : BusBusy) : State :=
  joinCapture (panelCapture (busCapture (encCapture (linksCapture (dioCapture (outputReads (imposeForces s 2))))) busy))

/-- The first request of a kind that waits and satisfies a test. -/
def frontReq (s : State) (p : Fin 8 → Req → Bool) : Option (Fin 8 × Nat) :=
  (s.host.ready.filterMap fun q => if h : q.1 < 8 then (if p ⟨q.1, h⟩ q.2.2 then some (⟨q.1, h⟩, q.2.1) else none) else none).head?

/-- A planned swap begins in this tick: a request, or an exchange through the standby that is READY (R386, R388). -/
def swapFront (s : State) : State :=
  if swapCheck { s with pair := { s.pair with xpair := false } } ≠ stOk then s
  else if s.pair.xpair then
    match rn s K.PAIR_SWAP_STATE, s.exch.req with
    | 2, some r => swapBegin s r.1 r.2 0x30
    | 2, none => swapBegin s 0xFF 0 0x30
    | _, _ => s
  else
    match frontReq s fun sl i => decide (i = .pairSwap) && decide (precheck s sl i = stOk) && workFits s sl (reqCost i) with
    | some q => swapBegin (startJob s q.1 q.2 0x31) q.1 q.2 0x31
    | none => s

/-- DORMANT entry begins in this tick (R236). -/
def dormantFront (s : State) : State :=
  if s.power.dorm.isSome then s
  else match frontReq s fun sl i => decide (i = .dormant) && decide (precheck s sl i = stOk) && decide (dormantCheck s sl = stOk) with
    | some q => dormantBegin s q.1 q.2
    | none => s

/-- The commit of the tick begins (R193, R195), and the mirror and resync of an ACTIVE module (R204, R382). A STANDBY or SYNCING module commits
mirror records only (R368), and no tick after the last one before a handover is committed, unless its confirmation is late and the swap is
abandoned (R386). -/
def commitFront (s : State) : State :=
  let s := if swapHolds s then mirrorLate s else s
  if swapHolds s || (decide (s.mode = .run) && !(drives s.role)) then s
  else
    let c := s.ret.dir.getLast?
    let s := commitBegin (mirrorLate s)
    resyncSend s (if s.ret.dir.getLast? = c then 0 else rn s K.RET_CHG_LAST)

/-- Work of the host and of the executive after the commit has begun: value edits, force changes, requests, carrier (R63, R536). -/
def hostPhaseO (s : State) : State :=
  if s.pair.swap.isSome ∧ s.role = .active then s
  else
    let s := editHead s
    let s := forceChanges s.ret.x.changes s
    if s.power.dorm.isSome then s
    else
      let s := runDone s.host.done s
      let s := runHellos s.host.hellos (runReady false s.host.ready [] s)
      carPhaseO (runSpare s)

/-- The executive's service write, after Phase O (R491); at an exchange that changes T it writes the new window (R493). -/
def servicePhaseO (s : State) (env : PhaseOEnv) : State :=
  if !env.serviced then s
  else
    let s := if s.tick.newprog ∧ periodT s ≠ s.tick.t then setWindow s (periodT s) else s
    wdgService s env.wdt env.busy

/-- A Phase O whose tick is not void: what belongs to the commit of tick n, then what belongs to tick n + 1. -/
def phaseOWork (s : State) (env : PhaseOEnv) : State :=
  let runs := runsTasks s
  let s := dormantFront (swapFront s)
  let s := if runsTasks s then captureOutputs s env.busy
    else panelStart (if s.mode = .run ∧ !(drives s.role) then joinCapture s else s)
  let s := if runs then usedReport s else s
  let s := exchangePrepare s
  let s := if s.mode = .held then migrationTick s env.initFail else s
  let s := (commitFront s).updTick fun t => { t with phase := .o }
  let s := hostPhaseO (loopsSnapshot s)
  if runs then retunes (identEnd s) else s

/-- Phase O begins at edge n + T - 3 µs: the overrun check, then its work (R63). -/
def execPhaseOStart (env : PhaseOEnv) (s : State) : Answer :=
  .next (
    if s.tick.phase ≠ .l then s
    else
      let s := flushStores (svEnd (setNow s (phaseOInstant s)))
      let s := if s.tick.armed then s else ev (bump (orw s K.TICK_STATUS 2) K.TICK_ARM_MISS_CNT) 0x1002 (p8 (s.tick.n + 1))
      let l := if runsTasks s then overruns s else []
      let s := if l = [] then s else voidTick s l
      let s := restartNow (endC1 s)
      if s.wdg.restartDue then s.updTick fun t => { t with phase := .o }
      else
        let s := if l = [] then phaseOWork s env else (if runsTasks s then usedReport s else s).updTick fun t => { t with phase := .o }
        servicePhaseO s env)

/-! ## The end of a commit (R195, R196) -/

/-- What follows when a tick is durable (R178, R210, R236, R566). -/
def afterDurable (s : State) : State :=
  let s := exchangeReport (exchangeActivate (releaseAcks s))
  let s := carRun s
  let s := if s.ret.mergeFrom.isSome ∧ s.power.dormStopped ∧ s.mode ≠ .dormant then commitClose s else s
  dormantCommit s

/-- Steps 5 and 6 of R195 are complete: the record is APPLIED and its tick durable. A record of the active module is applied by its standby. -/
def execCommitApplied (at_ : Nat) (s : State) : Answer :=
  let s := setNow s at_
  .next (match openRec s with
    | some r =>
      match r.body with
      | some b =>
        if r.st ≠ .sealed ∨ s.mode = .off then s
        else if r.mirror then afterDurable (mirrorApplied s r b)
        else afterDurable (applyRec s r b)
      | none => s
    | none => s)

/-! ## Bit errors (R36, R111, R188) -/

/-- A word of SRAM or of a bank gets a latent error; a double-bit error leaves the word with contents that nothing states. -/
def sramError (s : State) (p : Nat) (double : Bool) : State :=
  let w := eccWord p
  if !double then s.updMem fun m => { m with single := insertNat w m.single }
  else
    let n := if 0x10000000 ≤ w then 8 else 4
    let v := leBytes n (Config.fresh64 s.free).toNat
    let s := { s with free := s.free + 1 }
    s.updMem fun m => { m with cells := cellWrite 0 m.cells w v, single := m.single.filter (fun q => decide (q ≠ w)), double := insertNat w m.double }

/-- A word of MRAM gets a single-bit error, or one that fails its line; in the home image and in the event ring its contents are then whatever
they are. -/
def mramError (s : State) (o : Nat) (double : Bool) : State :=
  if 0x1000000 ≤ o then s
  else if !double then s.updRet fun r => { r with mramSingle := insertNat (o / 8 * 8) r.mramSingle }
  else if o < 0x800000 then
    let v := leBytes 8 (Config.fresh64 s.free).toNat
    State.updRet { s with free := s.free + 1 } fun r =>
      { r with home := cellWrite 0 r.home (o / 8 * 8) v, badHome := insertNat (o / 64) r.badHome }
  else if o < 0xC00000 then s.updRet fun r => { r with badLog := insertNat ((o - 0x800000) / 64) r.badLog }
  else if o < 0xC40000 then
    let v := leBytes 8 (Config.fresh64 s.free).toNat
    State.updEvr { s with free := s.free + 1 } fun e => { e with ring := cellWrite 0 e.ring ((o - 0xC00000) / 8 * 8) v }
  else if o < 0xD40000 then
    let l := ((o - 0xC40000) % 0x80000 / 64, (o - 0xC40000) / 0x80000)
    s.updRet fun r => { r with badJourn := if r.badJourn.contains l then r.badJourn else r.badJourn ++ [l] }
  else s

/-- A bit error falls in a memory: `kind` 0 in SRAM or a bank at a physical address, else in MRAM at an offset. -/
def execBitError (kind addr : Nat) (double : Bool) (s : State) : Answer :=
  .next (if kind = 0 then sramError s addr double else mramError s addr double)

end Sys2Proof.Machine
end

