-- ==== Sys2Proof/Machine/Dispatch.lean ====
section
/-! DEFINITION. One arm per command: each a direct call of its meaning. -/

namespace Sys2Proof.Machine

/-- The effect of a command on everything but the queue of waiting commands. -/
def exec (i : Instr) (s : State) : Host.Outcome State Fault Refusal :=
  match i with
  | .tickEdge env => Sys2Proof.Machine.execTickEdge env s
  | .phaseLStart arms => Sys2Proof.Machine.execPhaseLStart arms s
  | .phaseOStart env => Sys2Proof.Machine.execPhaseOStart env s
  | .eventTrigger src at_ cyc => Sys2Proof.Machine.execEventTrigger src at_ cyc s
  | .eventTake c at_ cyc => Sys2Proof.Machine.execEventTake c at_ cyc s
  | .taskAbandon c cycles at_ => Sys2Proof.Machine.execTaskAbandon c cycles at_ s
  | .resultComplete c => Sys2Proof.Machine.execResultComplete c s
  | .illegalInstruction c w => Sys2Proof.Machine.execIllegalInstruction c w s
  | .scrubLine => Sys2Proof.Machine.execScrubLine s
  | .nop c => Sys2Proof.Machine.execNop c s
  | .jr c ra imm => Sys2Proof.Machine.execJr c ra imm s
  | .band c bd ba bb => Sys2Proof.Machine.execBand c bd ba bb s
  | .bor c bd ba bb => Sys2Proof.Machine.execBor c bd ba bb s
  | .bxor c bd ba bb => Sys2Proof.Machine.execBxor c bd ba bb s
  | .bandn c bd ba bb => Sys2Proof.Machine.execBandn c bd ba bb s
  | .born c bd ba bb => Sys2Proof.Machine.execBorn c bd ba bb s
  | .bnand c bd ba bb => Sys2Proof.Machine.execBnand c bd ba bb s
  | .bnor c bd ba bb => Sys2Proof.Machine.execBnor c bd ba bb s
  | .bxnor c bd ba bb => Sys2Proof.Machine.execBxnor c bd ba bb s
  | .ceq c bd ra rb => Sys2Proof.Machine.execCeq c bd ra rb s
  | .cne c bd ra rb => Sys2Proof.Machine.execCne c bd ra rb s
  | .clt c bd ra rb => Sys2Proof.Machine.execClt c bd ra rb s
  | .cge c bd ra rb => Sys2Proof.Machine.execCge c bd ra rb s
  | .cltu c bd ra rb => Sys2Proof.Machine.execCltu c bd ra rb s
  | .cgeu c bd ra rb => Sys2Proof.Machine.execCgeu c bd ra rb s
  | .cnz c bd ra => Sys2Proof.Machine.execCnz c bd ra s
  | .ctst c bd ra rb => Sys2Proof.Machine.execCtst c bd ra rb s
  | .tbi c bd ra k => Sys2Proof.Machine.execTbi c bd ra k s
  | .tbr c bd ra rb => Sys2Proof.Machine.execTbr c bd ra rb s
  | .btog c rd ba => Sys2Proof.Machine.execBtog c rd ba s
  | .bins c rd ba k => Sys2Proof.Machine.execBins c rd ba k s
  | .add c rd ra rb => Sys2Proof.Machine.execAdd c rd ra rb s
  | .sub c rd ra rb => Sys2Proof.Machine.execSub c rd ra rb s
  | .addv c rd ra rb => Sys2Proof.Machine.execAddv c rd ra rb s
  | .subv c rd ra rb => Sys2Proof.Machine.execSubv c rd ra rb s
  | .adds c rd ra rb => Sys2Proof.Machine.execAdds c rd ra rb s
  | .subs c rd ra rb => Sys2Proof.Machine.execSubs c rd ra rb s
  | .addsu c rd ra rb => Sys2Proof.Machine.execAddsu c rd ra rb s
  | .subsu c rd ra rb => Sys2Proof.Machine.execSubsu c rd ra rb s
  | .abss c rd ra => Sys2Proof.Machine.execAbss c rd ra s
  | .and c rd ra rb => Sys2Proof.Machine.execAnd c rd ra rb s
  | .or c rd ra rb => Sys2Proof.Machine.execOr c rd ra rb s
  | .xor c rd ra rb => Sys2Proof.Machine.execXor c rd ra rb s
  | .andn c rd ra rb => Sys2Proof.Machine.execAndn c rd ra rb s
  | .orn c rd ra rb => Sys2Proof.Machine.execOrn c rd ra rb s
  | .xnor c rd ra rb => Sys2Proof.Machine.execXnor c rd ra rb s
  | .nor c rd ra rb => Sys2Proof.Machine.execNor c rd ra rb s
  | .min c rd ra rb => Sys2Proof.Machine.execMin c rd ra rb s
  | .max c rd ra rb => Sys2Proof.Machine.execMax c rd ra rb s
  | .minu c rd ra rb => Sys2Proof.Machine.execMinu c rd ra rb s
  | .maxu c rd ra rb => Sys2Proof.Machine.execMaxu c rd ra rb s
  | .sel c rd ra rb bc => Sys2Proof.Machine.execSel c rd ra rb bc s
  | .slt c rd ra rb => Sys2Proof.Machine.execSlt c rd ra rb s
  | .sltu c rd ra rb => Sys2Proof.Machine.execSltu c rd ra rb s
  | .addi c rd ra imm => Sys2Proof.Machine.execAddi c rd ra imm s
  | .addsi c rd ra imm => Sys2Proof.Machine.execAddsi c rd ra imm s
  | .andi c rd ra imm => Sys2Proof.Machine.execAndi c rd ra imm s
  | .ori c rd ra imm => Sys2Proof.Machine.execOri c rd ra imm s
  | .xori c rd ra imm => Sys2Proof.Machine.execXori c rd ra imm s
  | .orhi c rd ra imm => Sys2Proof.Machine.execOrhi c rd ra imm s
  | .slti c rd ra imm => Sys2Proof.Machine.execSlti c rd ra imm s
  | .sltiu c rd ra imm => Sys2Proof.Machine.execSltiu c rd ra imm s
  | .sll c rd ra rb => Sys2Proof.Machine.execSll c rd ra rb s
  | .srl c rd ra rb => Sys2Proof.Machine.execSrl c rd ra rb s
  | .sra c rd ra rb => Sys2Proof.Machine.execSra c rd ra rb s
  | .ror c rd ra rb => Sys2Proof.Machine.execRor c rd ra rb s
  | .shi c rd ra kind n => Sys2Proof.Machine.execShi c rd ra kind n s
  | .ext c rd ra sx w1 pos => Sys2Proof.Machine.execExt c rd ra sx w1 pos s
  | .ins c rd ra w1 pos => Sys2Proof.Machine.execIns c rd ra w1 pos s
  | .ldb c rt ra sg disp => Sys2Proof.Machine.execLdb c rt ra sg disp s
  | .ldh c rt ra sg disp => Sys2Proof.Machine.execLdh c rt ra sg disp s
  | .ldw c rt ra sg disp => Sys2Proof.Machine.execLdw c rt ra sg disp s
  | .stb c rt ra sg disp => Sys2Proof.Machine.execStb c rt ra sg disp s
  | .sth c rt ra sg disp => Sys2Proof.Machine.execSth c rt ra sg disp s
  | .stw c rt ra sg disp => Sys2Proof.Machine.execStw c rt ra sg disp s
  | .ldp c rt ra sg sz stp => Sys2Proof.Machine.execLdp c rt ra sg sz stp s
  | .stp c rt ra sg sz stp => Sys2Proof.Machine.execStp c rt ra sg sz stp s
  | .mul c rd ra rb => Sys2Proof.Machine.execMul c rd ra rb s
  | .mulhs c rd ra rb => Sys2Proof.Machine.execMulhs c rd ra rb s
  | .mulhu c rd ra rb => Sys2Proof.Machine.execMulhu c rd ra rb s
  | .mulq c rd ra rb => Sys2Proof.Machine.execMulq c rd ra rb s
  | .divs c rd ra rb => Sys2Proof.Machine.execDivs c rd ra rb s
  | .divu c rd ra rb => Sys2Proof.Machine.execDivu c rd ra rb s
  | .mac c acc sx sy px py ix iy q neg => Sys2Proof.Machine.execMac c acc sx sy px py ix iy q neg s
  | .macxb c acc sx sy px py ix iy q neg => Sys2Proof.Machine.execMacxb c acc sx sy px py ix iy q neg s
  | .macyb c acc sx sy px py ix iy q neg => Sys2Proof.Machine.execMacyb c acc sx sy px py ix iy q neg s
  | .macb c acc sx sy px py ix iy q neg => Sys2Proof.Machine.execMacb c acc sx sy px py ix iy q neg s
  | .aclr c acc => Sys2Proof.Machine.execAclr c acc s
  | .amovw c acc ra => Sys2Proof.Machine.execAmovw c acc ra s
  | .amovd c acc ra rb => Sys2Proof.Machine.execAmovd c acc ra rb s
  | .asra c acc rb => Sys2Proof.Machine.execAsra c acc rb s
  | .ardl c rd acc => Sys2Proof.Machine.execArdl c rd acc s
  | .ardh c rd acc => Sys2Proof.Machine.execArdh c rd acc s
  | .ardx c rd acc => Sys2Proof.Machine.execArdx c rd acc s
  | .asati c rd acc => Sys2Proof.Machine.execAsati c rd acc s
  | .asatq c rd acc => Sys2Proof.Machine.execAsatq c rd acc s
  | .br c bc t disp => Sys2Proof.Machine.execBr c bc t disp s
  | .call c ri disp => Sys2Proof.Machine.execCall c ri disp s
  | .ret c at_ => Sys2Proof.Machine.execRet c at_ s
  | .sld c rd ra imm => Sys2Proof.Machine.execSld c rd ra imm s
  | .smk c rd ra => Sys2Proof.Machine.execSmk c rd ra s
  | .swl c rd imm at_ => Sys2Proof.Machine.execSwl c rd imm at_ s
  | .sws c ra imm => Sys2Proof.Machine.execSws c ra imm s
  | .tbLoRead c rd at_ => Sys2Proof.Machine.execTbLoRead c rd at_ s
  | .evtFlagsRead c rd => Sys2Proof.Machine.execEvtFlagsRead c rd s
  | .csrr c rd => Sys2Proof.Machine.execCsrr c rd s
  | .csrw c ra => Sys2Proof.Machine.execCsrw c ra s
  | .csrs c ra => Sys2Proof.Machine.execCsrs c ra s
  | .csrc c ra => Sys2Proof.Machine.execCsrc c ra s
  | .evf c rd => Sys2Proof.Machine.execEvf c rd s
  | .evtb c bd k => Sys2Proof.Machine.execEvtb c bd k s
  | .evpb c bd k => Sys2Proof.Machine.execEvpb c bd k s
  | .rcyc c rd => Sys2Proof.Machine.execRcyc c rd s
  | .rlsd c rd => Sys2Proof.Machine.execRlsd c rd s
  | .rctx c rd => Sys2Proof.Machine.execRctx c rd s
  | .fadd c rd ra rb => Sys2Proof.Machine.execFadd c rd ra rb s
  | .fsub c rd ra rb => Sys2Proof.Machine.execFsub c rd ra rb s
  | .fmul c rd ra rb => Sys2Proof.Machine.execFmul c rd ra rb s
  | .fdiv c rd ra rb => Sys2Proof.Machine.execFdiv c rd ra rb s
  | .fsqrt c rd ra => Sys2Proof.Machine.execFsqrt c rd ra s
  | .feq c bd ra rb => Sys2Proof.Machine.execFeq c bd ra rb s
  | .flt c bd ra rb => Sys2Proof.Machine.execFlt c bd ra rb s
  | .fle c bd ra rb => Sys2Proof.Machine.execFle c bd ra rb s
  | .fun c bd ra rb => Sys2Proof.Machine.execFun c bd ra rb s
  | .ftoi c rd ra => Sys2Proof.Machine.execFtoi c rd ra s
  | .ftoir c rd ra => Sys2Proof.Machine.execFtoir c rd ra s
  | .itof c rd ra => Sys2Proof.Machine.execItof c rd ra s
  | .utof c rd ra => Sys2Proof.Machine.execUtof c rd ra s
  | .div64u c rd ra rb => Sys2Proof.Machine.execDiv64u c rd ra rb s
  | .div64s c rd ra rb => Sys2Proof.Machine.execDiv64s c rd ra rb s
  | .exchange h slot => Sys2Proof.Machine.execExchange h slot s
  | .exchangePair h slot => Sys2Proof.Machine.execExchangePair h slot s
  | .exchangePreload => Sys2Proof.Machine.execExchangePreload s
  | .commitSealed at_ => Sys2Proof.Machine.execCommitSealed at_ s
  | .commitApplied at_ => Sys2Proof.Machine.execCommitApplied at_ s
  | .recover at_ => Sys2Proof.Machine.execRecover at_ s
  | .lPlusPresent mv carrier => Sys2Proof.Machine.execLPlusPresent mv carrier s
  | .resetRelease bankMv at_ => Sys2Proof.Machine.execResetRelease bankMv at_ s
  | .bootRecordChoose ok at_ => Sys2Proof.Machine.execBootRecordChoose ok at_ s
  | .execVerify ok at_ => Sys2Proof.Machine.execExecVerify ok at_ s
  | .execRemeasure ok at_ => Sys2Proof.Machine.execExecRemeasure ok at_ s
  | .programLoad ok at_ => Sys2Proof.Machine.execProgramLoad ok at_ s
  | .roleAtStart peer9 at_ => Sys2Proof.Machine.execRoleAtStart peer9 at_ s
  | .groupSupplyLost g mv at_ => Sys2Proof.Machine.execGroupSupplyLost g mv at_ s
  | .groupSupplyReturn g at_ => Sys2Proof.Machine.execGroupSupplyReturn g at_ s
  | .powerFail busy at_ => Sys2Proof.Machine.execPowerFail busy at_ s
  | .powerFailEnd back at_ => Sys2Proof.Machine.execPowerFailEnd back at_ s
  | .bankEmpty at_ => Sys2Proof.Machine.execBankEmpty at_ s
  | .faultRestart busy => Sys2Proof.Machine.execFaultRestart busy s
  | .wakeSource bit at_ => Sys2Proof.Machine.execWakeSource bit at_ s
  | .upstreamFrame k bytes arr at_ => Sys2Proof.Machine.execUpstreamFrame k bytes arr at_ s
  | .safeBurstFrame k => Sys2Proof.Machine.execSafeBurstFrame k s
  | .listenFrame k ok at_ => Sys2Proof.Machine.execListenFrame k ok at_ s
  | .linkEnableWrite k v => Sys2Proof.Machine.execLinkEnableWrite k v s
  | .encTransition k a b z at_ => Sys2Proof.Machine.execEncTransition k a b z at_ s
  | .encIndex k at_ cyc => Sys2Proof.Machine.execEncIndex k at_ cyc s
  | .encLineBreak k line at_ => Sys2Proof.Machine.execEncLineBreak k line at_ s
  | .serialRequest k => Sys2Proof.Machine.execSerialRequest k s
  | .serialSample k start data nE nW crc at_ => Sys2Proof.Machine.execSerialSample k start data nE nW crc at_ s
  | .encEnableWrite k v => Sys2Proof.Machine.execEncEnableWrite k v s
  | .encModeWrite k inv v => Sys2Proof.Machine.execEncModeWrite k inv v s
  | .encSupplyOverload k at_ => Sys2Proof.Machine.execEncSupplyOverload k at_ s
  | .loopUpdate => Sys2Proof.Machine.execLoopUpdate s
  | .loopEnableWrite n v => Sys2Proof.Machine.execLoopEnableWrite n v s
  | .tuneStart h n => Sys2Proof.Machine.execTuneStart h n s
  | .tuneStop h n => Sys2Proof.Machine.execTuneStop h n s
  | .tuneApply h n => Sys2Proof.Machine.execTuneApply h n s
  | .captureStart h n sel dec count => Sys2Proof.Machine.execCaptureStart h n sel dec count s
  | .captureRelease h => Sys2Proof.Machine.execCaptureRelease h s
  | .supBaseline h n => Sys2Proof.Machine.execSupBaseline h n s
  | .identComplete at_ => Sys2Proof.Machine.execIdentComplete at_ s
  | .hbReceive lane intact hb delay at_ => Sys2Proof.Machine.execHbReceive lane intact hb delay at_ s
  | .laneNosig lane at_ => Sys2Proof.Machine.execLaneNosig lane at_ s
  | .leaseExpiry busy => Sys2Proof.Machine.execLeaseExpiry busy s
  | .leaseDeadline at_ => Sys2Proof.Machine.execLeaseDeadline at_ s
  | .releaseReceive lane intact tick ts at_ => Sys2Proof.Machine.execReleaseReceive lane intact tick ts at_ s
  | .lineReceive lane intact index tag line at_ => Sys2Proof.Machine.execLineReceive lane intact index tag line at_ s
  | .sealReceive lane intact sm st at_ => Sys2Proof.Machine.execSealReceive lane intact sm st at_ s
  | .confReceive lane intact tick at_ => Sys2Proof.Machine.execConfReceive lane intact tick at_ s
  | .syncReceive lane intact dest line st at_ => Sys2Proof.Machine.execSyncReceive lane intact dest line st at_ s
  | .ctrlStepSwap lane intact tick at_ => Sys2Proof.Machine.execCtrlStepSwap lane intact tick at_ s
  | .ctrlStepExchange lane intact tick at_ => Sys2Proof.Machine.execCtrlStepExchange lane intact tick at_ s
  | .pairSwap h => Sys2Proof.Machine.execPairSwap h s
  | .jhbReceive lane intact jhb delay at_ => Sys2Proof.Machine.execJhbReceive lane intact jhb delay at_ s
  | .xsegReceive lane intact tick seg data at_ => Sys2Proof.Machine.execXsegReceive lane intact tick seg data at_ s
  | .xendReceive lane intact tick len crc at_ => Sys2Proof.Machine.execXendReceive lane intact tick len crc at_ s
  | .jctrlSafe lane intact at_ => Sys2Proof.Machine.execJctrlSafe lane intact at_ s
  | .jctrlHold lane intact tick at_ => Sys2Proof.Machine.execJctrlHold lane intact tick at_ s
  | .jctrlMapdone lane intact tick at_ => Sys2Proof.Machine.execJctrlMapdone lane intact tick at_ s
  | .jctrlStop lane intact at_ => Sys2Proof.Machine.execJctrlStop lane intact at_ s
  | .jctrlEntitled lane intact tick at_ => Sys2Proof.Machine.execJctrlEntitled lane intact tick at_ s
  | .quadWait at_ => Sys2Proof.Machine.execQuadWait at_ s
  | .canFrameReceive m f at_ cyc => Sys2Proof.Machine.execCanFrameReceive m f at_ cyc s
  | .rtrReceive m at_ => Sys2Proof.Machine.execRtrReceive m at_ s
  | .windowStart m begun => Sys2Proof.Machine.execWindowStart m begun s
  | .canFrameSent m idx at_ => Sys2Proof.Machine.execCanFrameSent m idx at_ s
  | .busError m tec rec at_ => Sys2Proof.Machine.execBusError m tec rec at_ s
  | .busOffWaitEnd m => Sys2Proof.Machine.execBusOffWaitEnd m s
  | .busOffRecovered m at_ => Sys2Proof.Machine.execBusOffRecovered m at_ s
  | .busEnableWrite m v => Sys2Proof.Machine.execBusEnableWrite m v s
  | .diFilterChange idx cyc => Sys2Proof.Machine.execDiFilterChange idx cyc s
  | .wireBreak idx at_ => Sys2Proof.Machine.execWireBreak idx at_ s
  | .wireBreakClear idx at_ => Sys2Proof.Machine.execWireBreakClear idx at_ s
  | .outputOverload idx at_ => Sys2Proof.Machine.execOutputOverload idx at_ s
  | .retryWaitEnd idx => Sys2Proof.Machine.execRetryWaitEnd idx s
  | .openLoad idx at_ => Sys2Proof.Machine.execOpenLoad idx at_ s
  | .openLoadClear idx at_ => Sys2Proof.Machine.execOpenLoadClear idx at_ s
  | .dioEnableWrite v => Sys2Proof.Machine.execDioEnableWrite v s
  | .lineWriteEnd => Sys2Proof.Machine.execLineWriteEnd s
  | .railsReady mv at_ => Sys2Proof.Machine.execRailsReady mv at_ s
  | .railFault rail mv at_ => Sys2Proof.Machine.execRailFault rail mv at_ s
  | .railIdleExpiry => Sys2Proof.Machine.execRailIdleExpiry s
  | .railDischargeEnd mv at_ => Sys2Proof.Machine.execRailDischargeEnd mv at_ s
  | .blinkPhase r => Sys2Proof.Machine.execBlinkPhase r s
  | .panelEnableWrite v => Sys2Proof.Machine.execPanelEnableWrite v s
  | .calendarSecond at_ cyc => Sys2Proof.Machine.execCalendarSecond at_ cyc s
  | .setCmd v sub at_ cyc => Sys2Proof.Machine.execSetCmd v sub at_ cyc s
  | .rtcTimeRead slot w sub at_ => Sys2Proof.Machine.execRtcTimeRead slot w sub at_ s
  | .shadowRelease slot => Sys2Proof.Machine.execShadowRelease slot s
  | .clockBackupSwitch mv at_ => Sys2Proof.Machine.execClockBackupSwitch mv at_ s
  | .clockRailReturn mv at_ => Sys2Proof.Machine.execClockRailReturn mv at_ s
  | .clockDomainReset => Sys2Proof.Machine.execClockDomainReset s
  | .cedarWatchdogService t at_ => Sys2Proof.Machine.execCedarWatchdogService t at_ s
  | .watchdogExpiry busy at_ => Sys2Proof.Machine.execWatchdogExpiry busy at_ s
  | .eventRecordWrite => Sys2Proof.Machine.execEventRecordWrite s
  | .burstClose => Sys2Proof.Machine.execBurstClose s
  | .ringScan => Sys2Proof.Machine.execRingScan s
  | .evrClear slot => Sys2Proof.Machine.execEvrClear slot s
  | .evrWindowRead slot idx => Sys2Proof.Machine.execEvrWindowRead slot idx s
  | .rcRead slot blk word noClr sub => Sys2Proof.Machine.execRcRead slot blk word noClr sub s
  | .registerWrite slot item sub => Sys2Proof.Machine.execRegisterWrite slot item sub s
  | .hello ip port body at_ => Sys2Proof.Machine.execHello ip port body at_ s
  | .read h blk word count flags sub => Sys2Proof.Machine.execRead h blk word count flags sub s
  | .write h items sub => Sys2Proof.Machine.execWrite h items sub s
  | .edit h items => Sys2Proof.Machine.execEdit h items s
  | .forceSet h item => Sys2Proof.Machine.execForceSet h item s
  | .forceRelease h item => Sys2Proof.Machine.execForceRelease h item s
  | .close h => Sys2Proof.Machine.execClose h s
  | .auth h key sig => Sys2Proof.Machine.execAuth h key sig s
  | .restart h => Sys2Proof.Machine.execRestart h s
  | .coldStart h => Sys2Proof.Machine.execColdStart h s
  | .cedarHold h set => Sys2Proof.Machine.execCedarHold h set s
  | .dormant h => Sys2Proof.Machine.execDormant h s
  | .wake h => Sys2Proof.Machine.execWake h s
  | .safeEnter h => Sys2Proof.Machine.execSafeEnter h s
  | .safeRelease h => Sys2Proof.Machine.execSafeRelease h s
  | .sessionTimeout slot at_ => Sys2Proof.Machine.execSessionTimeout slot at_ s
  | .authLockoutEnd at_ => Sys2Proof.Machine.execAuthLockoutEnd at_ s
  | .gratuitousArp => Sys2Proof.Machine.execGratuitousArp s
  | .arpRequest target sender at_ => Sys2Proof.Machine.execArpRequest target sender at_ s
  | .icmpEcho dst src data at_ => Sys2Proof.Machine.execIcmpEcho dst src data at_ s
  | .datagramDiscard full at_ => Sys2Proof.Machine.execDatagramDiscard full at_ s
  | .switchForward port frame at_ => Sys2Proof.Machine.execSwitchForward port frame at_ s
  | .updOpen h slot resume len => Sys2Proof.Machine.execUpdOpen h slot resume len s
  | .updBlock h ofs data => Sys2Proof.Machine.execUpdBlock h ofs data s
  | .updVerify h => Sys2Proof.Machine.execUpdVerify h s
  | .updClose h => Sys2Proof.Machine.execUpdClose h s
  | .activate h slot mode migrate => Sys2Proof.Machine.execActivate h slot mode migrate s
  | .identity h => Sys2Proof.Machine.execIdentity h s
  | .attest h challenge => Sys2Proof.Machine.execAttest h challenge s
  | .ownerEnroll h key slot sig => Sys2Proof.Machine.execOwnerEnroll h key slot sig s
  | .ownerRevoke h slot => Sys2Proof.Machine.execOwnerRevoke h slot s
  | .rollbackAdvance h step => Sys2Proof.Machine.execRollbackAdvance h step s
  | .sectorEraseEnd ok at_ => Sys2Proof.Machine.execSectorEraseEnd ok at_ s
  | .blockProgramEnd ok at_ => Sys2Proof.Machine.execBlockProgramEnd ok at_ s
  | .verifyEnd ok at_ => Sys2Proof.Machine.execVerifyEnd ok at_ s
  | .activationWriteEnd ok at_ => Sys2Proof.Machine.execActivationWriteEnd ok at_ s
  | .carrierRecoveryStep ok at_ => Sys2Proof.Machine.execCarrierRecoveryStep ok at_ s
  | .updateIdleTimeout at_ => Sys2Proof.Machine.execUpdateIdleTimeout at_ s
  | .lPlusReturn at_ => Sys2Proof.Machine.execLPlusReturn at_ s
  | .rawLevelChange idx v at_ => Sys2Proof.Machine.execRawLevelChange idx v at_ s
  | .encLineReturn k line at_ => Sys2Proof.Machine.execEncLineReturn k line at_ s
  | .laneSymbolLock lane at_ => Sys2Proof.Machine.execLaneSymbolLock lane at_ s
  | .portLinkChange port speed full at_ => Sys2Proof.Machine.execPortLinkChange port speed full at_ s
  | .arbitrationLost m idx at_ => Sys2Proof.Machine.execArbitrationLost m idx at_ s
  | .retryHoldEnd idx => Sys2Proof.Machine.execRetryHoldEnd idx s
  | .trickleChargeEnd mv at_ => Sys2Proof.Machine.execTrickleChargeEnd mv at_ s
  | .bitError kind addr double => Sys2Proof.Machine.execBitError kind addr double s

end Sys2Proof.Machine
end

