-- ==== Sys2Proof/Safety.lean ====
section
/-! DEFINITION. What counts as a safe step, and the terms in which the statements speak of the cores' instructions. -/

namespace Sys2Proof

open Machine

/-- The command completes: it has a next state. -/
def Completes (i : Instr) (s : Machine.State) : Prop := ∃ t, Machine.exec i s = .next t

/-- A run of `n` steps that meets neither a fault nor a refusal. -/
def RunsTo : Nat → Machine.State → Machine.State → Prop
  | 0, s, t => s = t
  | n + 1, s, t => ∃ m, Machine.step s = .next m ∧ RunsTo n m t

/-! ## Logic cores -/

/-- What the word of an instruction says of the command: not the instants and waits that the outside reports with it, nor that a window
load is a read of TB_LO or of EVT_FLAGS. -/
def plain : Instr → Instr
  | .ret c _ => .ret c 0
  | .swl c rd imm _ => .swl c rd imm 0
  | .tbLoRead c rd _ => .swl c rd 0 0
  | .evtFlagsRead c rd => .swl c rd 0x40 0
  | i => i

/-- The registers of core `c`'s current context as an instruction issued in cycle `j` reads them (R99). -/
def regsAt (s : State) (c : CoreId) (j : Nat) : Ctx := s.cores[c].ctx.settle j

/-- Two contexts hold the same g, b, a and s registers and CSR. -/
def SameRegs (x y : Ctx) : Prop := x.g = y.g ∧ x.b = y.b ∧ x.a = y.a ∧ x.s = y.s ∧ x.csr = y.csr

/-- Core `c` issues its next instruction without a fetch fault, and no task end waits for it: Phase L runs, a task runs on the core,
the word at the PC lies in the instruction bank and can be read. -/
def Ready (s : State) (c : CoreId) : Prop :=
  canIssue s c = true ∧ (issueCtx s c).pc.toNat ≤ 0x1FFFF ∧ bankBad s [activeBank s c + (issueCtx s c).pc.toNat] = false ∧
    (match (issueCtx s c).delay with | .endTask _ => false | _ => true) = true

/-- The same, and the instruction stands in no delay slot (R103). -/
def ReadyFree (s : State) (c : CoreId) : Prop := Ready s c ∧ (issueCtx s c).delay = .none

/-- The address that a core fetches from after the instruction: the target that waits, else the next word (R103). -/
def nextPc (x : Ctx) : Word := match x.delay with | .jump t => t | _ => x.pc + 4

/-- Everything outside the cores, and every other core, is as before. -/
def OnlyCore (s t : State) (c : CoreId) : Prop := t = { s with cores := t.cores } ∧ ∀ k : CoreId, k ≠ c → t.cores[k] = s.cores[k]

/-- Of core `c` only the two contexts, the cycle count and the captured instruction word have changed, and of the other context
nothing. -/
def OnlyCtx (s t : State) (c : CoreId) : Prop :=
  t.cores[c] = { s.cores[c] with task := t.cores[c].task, evt := t.cores[c].evt, cyc := t.cores[c].cyc, word := t.cores[c].word } ∧
    (if s.cores[c].inEvt then t.cores[c].task = s.cores[c].task else t.cores[c].evt = s.cores[c].evt)

/-- One cycle has passed, and the core goes on at `pc` with the link stack and the waiting transfer given. -/
def GoesOn (s t : State) (c : CoreId) (pc : Word) (link : List (Word × Dword)) (delay : Delay) : Prop :=
  t.cores[c].cyc = s.cores[c].cyc + 1 ∧ t.cores[c].ctx.pc = pc ∧ t.cores[c].ctx.link = link ∧ t.cores[c].ctx.delay = delay

/-- Until cycle `i + d` every register reads as it would have without the instruction; in that cycle its results have been written on
top of all that were to complete by then (R99, R100). -/
def WritesAfter (s t : State) (c : CoreId) (d : Nat) (rs : List Res) : Prop :=
  (∀ j, s.cores[c].cyc ≤ j → j < s.cores[c].cyc + d → SameRegs (regsAt t c j) (regsAt s c j)) ∧
    SameRegs (regsAt t c (s.cores[c].cyc + d)) (rs.foldl Ctx.complete (regsAt s c (s.cores[c].cyc + d)))

/-- The instruction `i` of core `c` completes with the results `rs` at distance `d`, changes nothing else of the machine, and the core
goes on in its next cycle. -/
def Gives (s : State) (c : CoreId) (i : Instr) (d : Nat) (rs : List Res) : Prop :=
  ∃ t, exec i s = .next t ∧ OnlyCore s t c ∧ OnlyCtx s t c ∧ GoesOn s t c (nextPc (issueCtx s c)) (issueCtx s c).link .none ∧ WritesAfter s t c d rs

/-- A transfer of control with one delay slot (R103): the next word follows, then `target`. -/
def Jumps (s : State) (c : CoreId) (i : Instr) (target : Word) (link : List (Word × Dword)) (d : Nat) (rs : List Res) : Prop :=
  ∃ t, exec i s = .next t ∧ OnlyCore s t c ∧ OnlyCtx s t c ∧ GoesOn s t c ((issueCtx s c).pc + 4) link (.jump target) ∧ WritesAfter s t c d rs

/-- The word that holds physical address `p` has no latent error (R36, R111). -/
def CleanWord (s : State) (p : Nat) : Prop := s.mem.single.contains (eccWord p) = false ∧ s.mem.double.contains (eccWord p) = false

/-- The cycles for which a trap that core `c` makes now waits for the services that have begun in the tick (R75). -/
def serviceWait (s : State) (c : CoreId) : Nat :=
  s.sv.queue.foldl (fun m q => max m (q.start + q.cost)) s.sv.free - s.cores[c].cyc

/-- No trap of the tick still waits for the service core when core `c` makes its next one (R75). -/
def ServiceBegun (s : State) (c : CoreId) : Prop := ∀ q ∈ s.sv.queue, q.start < s.cores[c].cyc

/-- No trap of the tick has a wait that is still to be reported (R75). -/
def NoWaits (s : State) : Prop := ∀ q ∈ s.sv.queue, q.start ≤ q.at_

/-- Every store that the tick holds was issued before core `c`'s next cycle, or in it by a core of a number no higher (R35). -/
def StoresBefore (s : State) (c : CoreId) : Prop := ∀ q ∈ s.mem.stq, q.cyc < s.cores[c].cyc ∨ (q.cyc = s.cores[c].cyc ∧ q.core ≤ c.val)

/-- The emulated instruction `i` traps for `cost` cycles, then its results stand on top of everything that was in flight (R115 to R117).
Where every trap made before it has begun its service it waits until the last of them has ended, and no other core is moved; where none
of them has a wait to report nothing but the core and the service core changes (R75). -/
def Emulates (s : State) (c : CoreId) (i : Instr) (cost : Nat) (f : Ctx → List Res) : Prop :=
  ∃ t, exec i s = .next t ∧ t.cores[c].st = .run ∧ t.cores[c].ctx.pc = (issueCtx s c).pc + 4 ∧ t.cores[c].ctx.flight = [] ∧
    (∃ y, (∀ j, (∀ q ∈ s.cores[c].ctx.flight, q.due ≤ j) → SameRegs y (regsAt s c j)) ∧ SameRegs t.cores[c].ctx ((f y).foldl Ctx.complete y)) ∧
    t.mem = s.mem ∧
    (ServiceBegun s c → t.cores[c].cyc = s.cores[c].cyc + serviceWait s c + cost ∧ OnlyCtx s t c ∧
      (∀ k : CoreId, k ≠ c → t.cores[k] = s.cores[k]) ∧ (NoWaits s → t = { s with cores := t.cores, sv := t.sv }))

/-- The parameter words that differ from their reset value are listed by rising address. -/
def ParWf (s : State) : Prop := s.par.Pairwise fun a b => a.1 < b.1

/-- A C1 fault of core `c` with code `code` (R74, R113, R114): the task is abandoned, its results in flight and its link stack are gone,
its event is queued, FAULT_CNT of the core counts. -/
def Faults (s : State) (c : CoreId) (i : Instr) (code : Nat) : Prop :=
  ∃ t, exec i s = .next t ∧ t.cores[c].st = .aband ∧ t.cores[c].c1 = true ∧ t.cores[c].lastFault = code ∧ t.cores[c].ctx.flight = [] ∧
    t.cores[c].ctx.link = [] ∧ t.cores[c].abCyc = s.cores[c].cyc ∧ rw t (K.TICKk_FAULT_CNT c) = satInc (rw s (K.TICKk_FAULT_CNT c)) ∧
    (∃ o, t.evr.queue = s.evr.queue ++ [o] ∧ o.code = code ∧ o.ts = s.now) ∧ t.mem = s.mem ∧ (∀ k : CoreId, k ≠ c → t.cores[k] = s.cores[k])

/-! ## The module -/

/-- The module works for itself: SOLO, both ports off, no exchange, no swap, no entry to DORMANT, no power-fail. -/
def Alone (s : State) : Prop :=
  s.role = .solo ∧ sOn s = false ∧ jOn s = false ∧ s.power.dorm = none ∧ s.power.dormStopped = false ∧ s.power.pf = none ∧ s.exch.st = 0 ∧
    s.exch.image = none ∧ s.pair.entitled = none ∧ s.pair.swap = none ∧ s.pair.xpair = false ∧ s.pair.gate = false ∧ s.join.st ≠ 2 ∧
    s.join.stopDue = false ∧ s.join.safeDue = false

/-- The memories, the home image and the event ring are in canonical form, and the parameter words are listed by rising address. -/
def Canonical (s : State) : Prop :=
  cellsWf 0 s.mem.cells = true ∧ cellsWf 0 s.ret.home = true ∧ cellsWf 0 s.evr.ring = true ∧ ParWf s

/-- A request that the module takes at once: its session is open, its TAG agrees, its number is the next one, and nothing is held. -/
def InTurn (s : State) (h : ReqHdr) : Prop :=
  serves s = true ∧ s.ret.j.hdrs[h.slot].open_ = true ∧ s.ret.j.hdrs[h.slot].nonce = h.nonce ∧ h.tagOk = true ∧
    s.ret.jd.hdrs[h.slot].next ≤ h.seq ∧ h.seq < s.ret.jd.hdrs[h.slot].next + 16 ∧ h.seq = s.host.sess[h.slot].x ∧
    s.host.sess[h.slot].held = [] ∧ s.host.ready = [] ∧ queuedWork s h.slot h.seq = false

/-- The words of the retained state are listed by rising address. -/
def RetWordsWf (s : State) : Prop := s.ret.x.words.Pairwise fun a b => a.1 < b.1

/-- Both lists of words are by rising address. -/
def WordsWf (s : State) : Prop := ParWf s ∧ RetWordsWf s

/-- A request's result waits for the durability of its tick (R210): status, and what follows its response. -/
def Answers (s t : State) (slot : Fin 8) (seq status : Nat) (after : After) : Prop :=
  ∃ a, t.ret.acks = s.ret.acks ++ [a] ∧ a.slot = slot.val ∧ a.seq = seq ∧ a.status = status ∧ a.after = after ∧ a.tick = commitTick s

/-- Phase O executes the request `q` of session `slot` (R536): a privileged session of a module that ticks in RUN and works for itself. -/
def Served (s : State) (slot : Fin 8) : Prop :=
  Alone s ∧ s.mode = .run ∧ s.ret.j.hdrs[slot].priv = true ∧ s.host.jobs = []

end Sys2Proof
end

