-- ==== Sys2Proof/WellFormed.lean ====
section
/-! DEFINITION. Which commands are well formed: the operand rules that the manual gives an instruction word beyond
the widths of its fields (R94, R127, R128, R132, R139, R143), and the ranges of the operands of the others. -/

namespace Sys2Proof

/-- EXT and INS keep POS + w within 32 (R127). -/
def wfField (w1 pos : RegNo) : Bool := decide (pos.val + w1.val + 1 ≤ 32)
/-- A register of an even number, for pairs (R132, R139, R143). -/
def wfEven (r : RegNo) : Bool := decide (r.val % 2 = 0)
/-- A segment register that the program may load (R94). -/
def wfSeg (r : RegNo) : Bool := decide (8 ≤ r.val ∧ r.val ≤ 15)

/-- The operand rules of a command. -/
def Instr.wf : Instr → Bool
  | .ext _ _ _ _ w1 pos => wfField w1 pos
  | .ins _ _ _ w1 pos => wfField w1 pos
  | .ldp _ _ _ _ sz _ => decide (sz ≠ 3)
  | .stp _ _ _ _ sz _ => decide (sz ≠ 3)
  | .divs _ rd _ _ => wfEven rd
  | .divu _ rd _ _ => wfEven rd
  | .div64u _ rd ra _ => wfEven rd && wfEven ra
  | .div64s _ rd ra _ => wfEven rd && wfEven ra
  | .sld _ rd _ _ => wfSeg rd
  | .smk _ rd ra => wfSeg rd && wfEven ra
  | _ => true

end Sys2Proof
end

