-- ==== Sys2Proof/Certificates/Slice0/Obligations.lean ====
section
/-! DEFINITION. The statements for the provers. -/

open Sys2Proof Sys2Proof.Machine


/-- For every command and state, a step with the command at the front of the queue is `exec` of it on the state with the queue's rest;
an empty queue idles (the model's choice, log 15). -/
def Obligations.StepRunsFrontCommand : Prop :=
  (∀ (i : Instr) (r : List Instr) (s : State), step { s with pending := i :: r } = exec i { s with pending := r }) ∧
    ∀ s : State, s.pending = [] → step s = .next s

/-- What a completing result leaves (R86, R99): it writes its register and no other; g0 reads 0 and b0 reads 1 whatever is
written to them. -/
def Sys2Proof.Stated.ResultWritesItsRegister : Prop :=
  ∀ x : Ctx,
    (∀ (r q : RegNo) (v : Word), (x.complete (.g r v)).rg q = (if q = r ∧ r ≠ 0 then v else x.rg q) ∧ (x.complete (.g r v)).b = x.b ∧
      (x.complete (.g r v)).a = x.a ∧ (x.complete (.g r v)).s = x.s ∧ (x.complete (.g r v)).csr = x.csr) ∧
    (∀ (r q : RegNo) (v : Bool), (x.complete (.b r v)).rbit q = (if q = r ∧ r ≠ 0 then v else x.rbit q) ∧ (x.complete (.b r v)).g = x.g ∧
      (x.complete (.b r v)).a = x.a ∧ (x.complete (.b r v)).s = x.s ∧ (x.complete (.b r v)).csr = x.csr) ∧
    (∀ (r q : SegNo) (d : Dword), (x.complete (.s r d)).s[q] = (if q = r then d else x.s[q]) ∧ (x.complete (.s r d)).g = x.g ∧
      (x.complete (.s r d)).b = x.b ∧ (x.complete (.s r d)).a = x.a ∧ (x.complete (.s r d)).csr = x.csr) ∧
    (∀ (r q : AccNo) (v : Acc), (x.complete (.acc r v)).a[q] = (if q = r then v else x.a[q]) ∧
      (x.complete (.accAdd r v)).a[q] = (if q = r then x.a[r] + v else x.a[q])) ∧
    x.rg 0 = 0 ∧ x.rbit 0 = true

/-- NOP and the bit logic of R123: NOP has no result; each of the eight writes b[BD] at distance 1. -/
def Sys2Proof.Stated.BitLogicResults : Prop :=
  ∀ (s : State) (c : CoreId) (bd ba bb : RegNo), Ready s c →
    let a := (issueCtx s c).rbit ba
    let b := (issueCtx s c).rbit bb
    Gives s c (.nop c) 1 [] ∧
    Gives s c (.band c bd ba bb) 1 [.b bd (a && b)] ∧
    Gives s c (.bor c bd ba bb) 1 [.b bd (a || b)] ∧
    Gives s c (.bxor c bd ba bb) 1 [.b bd (a != b)] ∧
    Gives s c (.bandn c bd ba bb) 1 [.b bd (a && !b)] ∧
    Gives s c (.born c bd ba bb) 1 [.b bd (a || !b)] ∧
    Gives s c (.bnand c bd ba bb) 1 [.b bd (!(a && b))] ∧
    Gives s c (.bnor c bd ba bb) 1 [.b bd (!(a || b))] ∧
    Gives s c (.bxnor c bd ba bb) 1 [.b bd (a == b)]

/-- The compares and bit transfers of R124, each at distance 1. -/
def Sys2Proof.Stated.CompareAndBitTransferResults : Prop :=
  ∀ (s : State) (c : CoreId) (rd ra rb bk k : RegNo), Ready s c →
    let a := (issueCtx s c).rg ra
    let b := (issueCtx s c).rg rb
    let bit := (issueCtx s c).rbit bk
    Gives s c (.ceq c rd ra rb) 1 [.b rd (decide (a = b))] ∧
    Gives s c (.cne c rd ra rb) 1 [.b rd (decide (a ≠ b))] ∧
    Gives s c (.clt c rd ra rb) 1 [.b rd (decide (a.toInt < b.toInt))] ∧
    Gives s c (.cge c rd ra rb) 1 [.b rd (decide (b.toInt ≤ a.toInt))] ∧
    Gives s c (.cltu c rd ra rb) 1 [.b rd (decide (a.toNat < b.toNat))] ∧
    Gives s c (.cgeu c rd ra rb) 1 [.b rd (decide (b.toNat ≤ a.toNat))] ∧
    Gives s c (.cnz c rd ra) 1 [.b rd (decide (a.toNat ≠ 0))] ∧
    Gives s c (.ctst c rd ra rb) 1 [.b rd (decide (∃ q : Fin 32, a.getLsbD q = true ∧ b.getLsbD q = true))] ∧
    Gives s c (.tbi c rd ra k) 1 [.b rd (a.toNat.testBit k)] ∧
    Gives s c (.tbr c rd ra rb) 1 [.b rd (a.toNat.testBit (b.toNat % 32))] ∧
    Gives s c (.btog c rd bk) 1 [.g rd (if bit then 1 else 0)] ∧
    ∃ v, Gives s c (.bins c rd bk k) 1 [.g rd v] ∧
      ∀ q : Fin 32, v.getLsbD q = if q = k then bit else ((issueCtx s c).rg rd).getLsbD q

/-- The logic of R123 and the compares and bit transfers of R124. -/
def Obligations.BitAndCompareResults : Prop := Stated.BitLogicResults ∧ Stated.CompareAndBitTransferResults

/-- The word operations of R125, each at distance 1; OV of ADDV and SUBV, SAT of the saturating forms. -/
def Sys2Proof.Stated.WordOperationResults : Prop :=
  ∀ (s : State) (c : CoreId) (rd ra rb bk : RegNo), Ready s c →
    let a := (issueCtx s c).rg ra
    let b := (issueCtx s c).rg rb
    let ov := fun (v : Int) => if v < -(2 ^ 31) ∨ 2 ^ 31 - 1 < v then [Res.csrOr 0x4] else []
    let sat := fun (lo hi v : Int) => if v < lo ∨ hi < v then [Res.csrOr 0x1] else []
    let clamp := fun (lo hi v : Int) => BitVec.ofInt 32 (max lo (min hi v))
    Gives s c (.add c rd ra rb) 1 [.g rd (BitVec.ofNat 32 (a.toNat + b.toNat))] ∧
    Gives s c (.sub c rd ra rb) 1 [.g rd (BitVec.ofInt 32 (a.toInt - b.toInt))] ∧
    Gives s c (.addv c rd ra rb) 1 (.g rd (a + b) :: ov (a.toInt + b.toInt)) ∧
    Gives s c (.subv c rd ra rb) 1 (.g rd (a - b) :: ov (a.toInt - b.toInt)) ∧
    Gives s c (.adds c rd ra rb) 1 (.g rd (clamp (-(2 ^ 31)) (2 ^ 31 - 1) (a.toInt + b.toInt)) :: sat (-(2 ^ 31)) (2 ^ 31 - 1) (a.toInt + b.toInt)) ∧
    Gives s c (.subs c rd ra rb) 1 (.g rd (clamp (-(2 ^ 31)) (2 ^ 31 - 1) (a.toInt - b.toInt)) :: sat (-(2 ^ 31)) (2 ^ 31 - 1) (a.toInt - b.toInt)) ∧
    Gives s c (.addsu c rd ra rb) 1 (.g rd (clamp 0 (2 ^ 32 - 1) (a.toNat + b.toNat)) :: sat 0 (2 ^ 32 - 1) (a.toNat + b.toNat)) ∧
    Gives s c (.subsu c rd ra rb) 1 (.g rd (clamp 0 (2 ^ 32 - 1) ((a.toNat : Int) - b.toNat)) :: sat 0 (2 ^ 32 - 1) ((a.toNat : Int) - b.toNat)) ∧
    Gives s c (.abss c rd ra) 1 (.g rd (clamp (-(2 ^ 31)) (2 ^ 31 - 1) a.toInt.natAbs) :: sat (-(2 ^ 31)) (2 ^ 31 - 1) a.toInt.natAbs) ∧
    Gives s c (.and c rd ra rb) 1 [.g rd (a &&& b)] ∧
    Gives s c (.or c rd ra rb) 1 [.g rd (a ||| b)] ∧
    Gives s c (.xor c rd ra rb) 1 [.g rd (a ^^^ b)] ∧
    Gives s c (.andn c rd ra rb) 1 [.g rd (a &&& ~~~b)] ∧
    Gives s c (.orn c rd ra rb) 1 [.g rd (a ||| ~~~b)] ∧
    Gives s c (.xnor c rd ra rb) 1 [.g rd (~~~(a ^^^ b))] ∧
    Gives s c (.nor c rd ra rb) 1 [.g rd (~~~(a ||| b))] ∧
    Gives s c (.min c rd ra rb) 1 [.g rd (BitVec.ofInt 32 (min a.toInt b.toInt))] ∧
    Gives s c (.max c rd ra rb) 1 [.g rd (BitVec.ofInt 32 (max a.toInt b.toInt))] ∧
    Gives s c (.minu c rd ra rb) 1 [.g rd (BitVec.ofNat 32 (min a.toNat b.toNat))] ∧
    Gives s c (.maxu c rd ra rb) 1 [.g rd (BitVec.ofNat 32 (max a.toNat b.toNat))] ∧
    Gives s c (.sel c rd ra rb bk) 1 [.g rd (if (issueCtx s c).rbit bk then a else b)] ∧
    Gives s c (.slt c rd ra rb) 1 [.g rd (if a.toInt < b.toInt then 1 else 0)] ∧
    Gives s c (.sltu c rd ra rb) 1 [.g rd (if a.toNat < b.toNat then 1 else 0)]

/-- The immediates of R126, each at distance 1. -/
def Sys2Proof.Stated.ImmediateResults : Prop :=
  ∀ (s : State) (c : CoreId) (rd ra : RegNo) (imm : Half), Ready s c →
    let a := (issueCtx s c).rg ra
    let v := a.toInt + imm.toInt
    Gives s c (.addi c rd ra imm) 1 [.g rd (BitVec.ofInt 32 v)] ∧
    Gives s c (.addsi c rd ra imm) 1
      (.g rd (BitVec.ofInt 32 (max (-(2 ^ 31)) (min (2 ^ 31 - 1) v))) :: if v < -(2 ^ 31) ∨ 2 ^ 31 - 1 < v then [.csrOr 0x1] else []) ∧
    Gives s c (.andi c rd ra imm) 1 [.g rd (a &&& BitVec.ofNat 32 imm.toNat)] ∧
    Gives s c (.ori c rd ra imm) 1 [.g rd (a ||| BitVec.ofNat 32 imm.toNat)] ∧
    Gives s c (.xori c rd ra imm) 1 [.g rd (a ^^^ BitVec.ofNat 32 imm.toNat)] ∧
    Gives s c (.orhi c rd ra imm) 1 [.g rd (a ||| BitVec.ofNat 32 (65536 * imm.toNat))] ∧
    Gives s c (.slti c rd ra imm) 1 [.g rd (if a.toInt < imm.toInt then 1 else 0)] ∧
    Gives s c (.sltiu c rd ra imm) 1 [.g rd (if a.toNat < (imm.signExtend 32).toNat then 1 else 0)]

/-- The word operations of R125 and the immediates of R126. -/
def Obligations.WordAndImmediateResults : Prop := Stated.WordOperationResults ∧ Stated.ImmediateResults

/-- The shifts of R127 by a register or an immediate, each at distance 1, said bit by bit. -/
def Sys2Proof.Stated.ShiftResults : Prop :=
  ∀ (s : State) (c : CoreId) (rd ra rb n : RegNo), Ready s c →
    let a := (issueCtx s c).rg ra
    let q := ((issueCtx s c).rg rb).toNat % 32
    ∃ f : Nat → Nat → Word,
      (∀ m, m < 32 → ∀ i, i < 32 →
        (f 0 m).getLsbD i = (decide (m ≤ i) && a.getLsbD (i - m)) ∧
        (f 1 m).getLsbD i = (decide (i + m < 32) && a.getLsbD (i + m)) ∧
        (f 2 m).getLsbD i = (if i + m < 32 then a.getLsbD (i + m) else a.getLsbD 31) ∧
        (f 3 m).getLsbD i = a.getLsbD ((i + m) % 32)) ∧
      Gives s c (.sll c rd ra rb) 1 [.g rd (f 0 q)] ∧
      Gives s c (.srl c rd ra rb) 1 [.g rd (f 1 q)] ∧
      Gives s c (.sra c rd ra rb) 1 [.g rd (f 2 q)] ∧
      Gives s c (.ror c rd ra rb) 1 [.g rd (f 3 q)] ∧
      ∀ k : BitVec 2, Gives s c (.shi c rd ra k n) 1 [.g rd (f k.toNat n)]

/-- EXT and INS (R127): the field of `w1 + 1` bits from `pos`; a field that leaves the word is an illegal instruction. -/
def Sys2Proof.Stated.FieldExtractAndInsert : Prop :=
  ∀ (s : State) (c : CoreId) (rd ra w1 pos : RegNo) (sx : Bool), Ready s c →
    let a := (issueCtx s c).rg ra
    let old := (issueCtx s c).rg rd
    (pos.val + w1.val + 1 ≤ 32 →
      (∃ v, Gives s c (.ext c rd ra sx w1 pos) 1 [.g rd v] ∧
        ∀ i : Fin 32, v.getLsbD i = if i.val ≤ w1.val then a.getLsbD (pos.val + i.val) else sx && a.getLsbD (pos.val + w1.val)) ∧
      ∃ v, Gives s c (.ins c rd ra w1 pos) 1 [.g rd v] ∧
        ∀ i : Fin 32, v.getLsbD i = if pos.val ≤ i.val ∧ i.val ≤ pos.val + w1.val then a.getLsbD (i.val - pos.val) else old.getLsbD i) ∧
    (32 < pos.val + w1.val + 1 → s.cores[c].c1 = false → s.wdg.h = none → s.evr.queue.length < 64 →
      Faults s c (.ext c rd ra sx w1 pos) 0x2002 ∧ Faults s c (.ins c rd ra w1 pos) 0x2002)

/-- The shifts, EXT and INS of R127. -/
def Obligations.ShiftAndFieldResults : Prop := Stated.ShiftResults ∧ Stated.FieldExtractAndInsert

/-- LDB, LDH and LDW (R92, R128, R129): where the segment and the memory map permit the access (R38) and the word read has no error, RT
takes the bytes that the issue cycle shows (R35), at distance 3 from a bank and 8 from shared SRAM. -/
def Obligations.LoadResults : Prop :=
  ∀ (s : State) (c : CoreId) (rt ra : RegNo) (sg : SegNo) (disp : BitVec 12), Ready s c →
    let x := issueCtx s c
    let d := x.s[sg]
    let go := fun (i : Instr) (z : Nat) =>
      let o := (x.rg ra + BitVec.ofInt 32 (disp.toInt * z)).toNat
      let p := physOf c (dBase d + o)
      segOk d false z o = true → inRegion (dBase d + o) z = true → CleanWord s p →
        Gives s c i (if inX d || inY d then 3 else 8) [.g rt (BitVec.ofNat 32 (leNat (seenBytes s p z s.cores[c].cyc)))]
    go (.ldb c rt ra sg disp) 1 ∧ go (.ldh c rt ra sg disp) 2 ∧ go (.ldw c rt ra sg disp) 4

/-- STB, STH and STW (R35, R92, R104, R128): no register result; from 2 cycles on the bytes stored read as the low bytes of RT, and every
other byte of memory as it would have, in every cycle. -/
def Sys2Proof.Stated.StoreResults : Prop :=
  ∀ (s : State) (c : CoreId) (rt ra : RegNo) (sg : SegNo) (disp : BitVec 12), Ready s c → StoresBefore s c →
    let x := issueCtx s c
    let d := x.s[sg]
    let go := fun (i : Instr) (z : Nat) =>
      let o := (x.rg ra + BitVec.ofInt 32 (disp.toInt * z)).toNat
      let p := physOf c (dBase d + o)
      segOk d true z o = true → inRegion (dBase d + o) z = true →
        ∃ t, exec i s = .next t ∧ t = { s with cores := t.cores, mem := { s.mem with stq := t.mem.stq } } ∧
          (∀ k : CoreId, k ≠ c → t.cores[k] = s.cores[k]) ∧ OnlyCtx s t c ∧ GoesOn s t c (nextPc x) x.link .none ∧
          (∀ j, s.cores[c].cyc ≤ j → SameRegs (regsAt t c j) (regsAt s c j)) ∧
          ∀ a j, seenByte t a j =
            if p ≤ a ∧ a < p + z ∧ s.cores[c].cyc + 2 ≤ j then BitVec.ofNat 8 ((x.rg rt).toNat / 256 ^ (a - p)) else seenByte s a j
    go (.stb c rt ra sg disp) 1 ∧ go (.sth c rt ra sg disp) 2 ∧ go (.stw c rt ra sg disp) 4

/-- LDP and STP (R128, R130, R131): the access is at the offset before the step, the offset register takes step(s, o, n) in the next
cycle, and a load lands at its own distance; SZ = 3 is an illegal instruction. -/
def Obligations.SteppedAccess : Prop :=
  ∀ (s : State) (c : CoreId) (rt ra : RegNo) (sg : SegNo) (sz : BitVec 2) (stp : BitVec 10), Ready s c →
    let x := issueCtx s c
    let d := x.s[sg]
    let z : Nat := 2 ^ sz.toNat
    let o := (x.rg ra).toNat
    let n := stp.toInt * z
    let v : Int := o + n
    let L : Int := dLimit d
    let w := BitVec.ofInt 32 (if dC d = true ∧ 0 ≤ n ∧ L < v then v - (L + 1) else if dC d = true ∧ n < 0 ∧ v < 0 then v + (L + 1) else v)
    let p := physOf c (dBase d + o)
    let dist := if inX d || inY d then 3 else 8
    (sz ≠ 3 → segOk d false z o = true → inRegion (dBase d + o) z = true → CleanWord s p →
      ∃ t, exec (.ldp c rt ra sg sz stp) s = .next t ∧ OnlyCore s t c ∧ OnlyCtx s t c ∧ GoesOn s t c (nextPc x) x.link .none ∧
        SameRegs (regsAt t c (s.cores[c].cyc + 1)) ((regsAt s c (s.cores[c].cyc + 1)).complete (.g ra w)) ∧
        (∀ j, s.cores[c].cyc ≤ j → (regsAt t c j).b = (regsAt s c j).b ∧ (regsAt t c j).a = (regsAt s c j).a ∧ (regsAt t c j).s = (regsAt s c j).s ∧
          (regsAt t c j).csr = (regsAt s c j).csr ∧ ∀ q, q ≠ ra → q ≠ rt → (regsAt t c j).rg q = (regsAt s c j).rg q) ∧
        (rt ≠ 0 → (regsAt t c (s.cores[c].cyc + dist)).rg rt = BitVec.ofNat 32 (leNat (seenBytes s p z s.cores[c].cyc)))) ∧
    (sz ≠ 3 → segOk d true z o = true → inRegion (dBase d + o) z = true → StoresBefore s c →
      ∃ t, exec (.stp c rt ra sg sz stp) s = .next t ∧ t = { s with cores := t.cores, mem := { s.mem with stq := t.mem.stq } } ∧
        (∀ k : CoreId, k ≠ c → t.cores[k] = s.cores[k]) ∧ OnlyCtx s t c ∧ GoesOn s t c (nextPc x) x.link .none ∧
        WritesAfter s t c 1 [.g ra w] ∧
        ∀ a j, seenByte t a j =
          if p ≤ a ∧ a < p + z ∧ s.cores[c].cyc + 2 ≤ j then BitVec.ofNat 8 ((x.rg rt).toNat / 256 ^ (a - p)) else seenByte s a j) ∧
    (sz = 3 → s.cores[c].c1 = false → s.wdg.h = none → s.evr.queue.length < 64 →
      Faults s c (.ldp c rt ra sg sz stp) 0x2002 ∧ Faults s c (.stp c rt ra sg sz stp) 0x2002)

/-- MUL, MULHS, MULHU and MULQ at distance 3 (R132). -/
def Sys2Proof.Stated.MultiplyResults : Prop :=
  ∀ (s : State) (c : CoreId) (rd ra rb : RegNo), Ready s c →
    let a := (issueCtx s c).rg ra
    let b := (issueCtx s c).rg rb
    let q : Int := (2 * a.toInt * b.toInt + 2 ^ 31).fdiv (2 ^ 32)
    Gives s c (.mul c rd ra rb) 3 [.g rd (BitVec.ofInt 32 (a.toInt * b.toInt))] ∧
    Gives s c (.mulhs c rd ra rb) 3 [.g rd (BitVec.ofInt 32 ((a.toInt * b.toInt).fdiv (2 ^ 32)))] ∧
    Gives s c (.mulhu c rd ra rb) 3 [.g rd (BitVec.ofNat 32 (a.toNat * b.toNat / 2 ^ 32))] ∧
    Gives s c (.mulq c rd ra rb) 3
      (.g rd (BitVec.ofInt 32 (max (-(2 ^ 31)) (min (2 ^ 31 - 1) q))) :: if q < -(2 ^ 31) ∨ 2 ^ 31 - 1 < q then [.csrOr 0x1] else [])

/-- DIVS and DIVU (R132, R133): quotient in g[RD], remainder in g[RD + 1] at distance 18, the corners of R133; an odd RD is an illegal
instruction. -/
def Sys2Proof.Stated.DivideResults : Prop :=
  ∀ (s : State) (c : CoreId) (rd ra rb : RegNo), Ready s c →
    let a := (issueCtx s c).rg ra
    let b := (issueCtx s c).rg rb
    (rd.val % 2 = 0 →
      (b ≠ 0 →
        Gives s c (.divu c rd ra rb) 18 [.g rd (BitVec.ofNat 32 (a.toNat / b.toNat)), .g (rd + 1) (BitVec.ofNat 32 (a.toNat % b.toNat))] ∧
        (¬(a.toInt = -(2 ^ 31) ∧ b.toInt = -1) →
          Gives s c (.divs c rd ra rb) 18
            [.g rd (BitVec.ofInt 32 (a.toInt.tdiv b.toInt)), .g (rd + 1) (BitVec.ofInt 32 (a.toInt.tmod b.toInt))]) ∧
        (a.toInt = -(2 ^ 31) ∧ b.toInt = -1 → Gives s c (.divs c rd ra rb) 18 [.g rd 0x7FFFFFFF, .g (rd + 1) 0, .csrOr 0x4])) ∧
      (b = 0 →
        Gives s c (.divu c rd ra rb) 18 [.g rd 0xFFFFFFFF, .g (rd + 1) a, .csrOr 0x8] ∧
        Gives s c (.divs c rd ra rb) 18 [.g rd (if a.toInt < 0 then 0x80000000 else 0x7FFFFFFF), .g (rd + 1) a, .csrOr 0x8])) ∧
    (rd.val % 2 = 1 → s.cores[c].c1 = false → s.wdg.h = none → s.evr.queue.length < 64 →
      Faults s c (.divu c rd ra rb) 0x2002 ∧ Faults s c (.divs c rd ra rb) 0x2002)

/-- The multiplies and divides of R132 and R133. -/
def Obligations.MultiplyAndDivideResults : Prop := Stated.MultiplyResults ∧ Stated.DivideResults

/-- MAC, MACXB, MACYB and MACB (R108, R134, R136): both operands are fetched through banks X and Y, the offsets step in the next cycle,
and the product is added to the accumulator that stands at issue + 4; AOV where the sum leaves 72 bits. -/
def Sys2Proof.Stated.MultiplyAccumulate : Prop :=
  ∀ (s : State) (c : CoreId) (acc : AccNo) (sx sy : SegNo) (px py : RegNo) (ix iy : BitVec 2) (q neg : Bool), Ready s c →
    let x := issueCtx s c
    let dx := x.s[sx]
    let dy := x.s[sy]
    let ox := (x.rg px).toNat
    let oy := (x.rg py).toNat
    let p1 := physOf c (dBase dx + ox)
    let p2 := physOf c (dBase dy + oy)
    let j := s.cores[c].cyc
    let word := fun (p : Nat) => (BitVec.ofNat 32 (leNat (seenBytes s p 4 j))).toInt
    let prod : Int := (if neg then -1 else 1) * (if q then 2 else 1) * (word p1 * word p2)
    let step := fun (d : Dword) (o : Nat) (back : Bool) (k : BitVec 2) =>
      let n : Int := 4 * (k.toNat + 1)
      let v : Int := if back then o - n else o + n
      BitVec.ofInt 32 (if dC d = true ∧ back = true ∧ v < 0 then v + (dLimit d + 1)
        else if dC d = true ∧ back = false ∧ (dLimit d : Int) < v then v - (dLimit d + 1) else v)
    let go := fun (i : Instr) (bx byy : Bool) =>
      ∃ t, exec i s = .next t ∧ OnlyCore s t c ∧ OnlyCtx s t c ∧ GoesOn s t c (nextPc x) x.link .none ∧
        SameRegs (regsAt t c (j + 1))
          (((regsAt s c (j + 1)).complete (.g px (step dx ox bx ix))).complete
            (if px = py then .g px (step dx ox bx ix) else .g py (step dy oy byy iy))) ∧
        (∀ m, j ≤ m → m < j + 4 → (regsAt t c m).a = (regsAt s c m).a) ∧
        (regsAt t c (j + 4)).a[acc] = (regsAt s c (j + 4)).a[acc] + BitVec.ofInt 72 prod ∧
        (regsAt t c (j + 4)).csr = ((regsAt s c (j + 4)).csr |||
          if (regsAt s c (j + 4)).a[acc].toInt + (BitVec.ofInt 72 prod).toInt < -(2 ^ 71) ∨ 2 ^ 71 ≤ (regsAt s c (j + 4)).a[acc].toInt + (BitVec.ofInt 72 prod).toInt
          then 0x2 else 0) ∧
        (∀ k : AccNo, k ≠ acc → (regsAt t c (j + 4)).a[k] = (regsAt s c (j + 4)).a[k]) ∧
        ∀ m, j ≤ m → (regsAt t c m).b = (regsAt s c m).b ∧ (regsAt t c m).s = (regsAt s c m).s ∧
          ∀ k : RegNo, k ≠ px → k ≠ py → (regsAt t c m).rg k = (regsAt s c m).rg k
    (inX dx = true → inY dy = true → segOk dx false 4 ox = true → segOk dy false 4 oy = true → inRegion (dBase dx + ox) 4 = true →
      inRegion (dBase dy + oy) 4 = true → CleanWord s p1 → CleanWord s p2 →
      go (.mac c acc sx sy px py ix iy q neg) false false ∧ go (.macxb c acc sx sy px py ix iy q neg) true false ∧
      go (.macyb c acc sx sy px py ix iy q neg) false true ∧ go (.macb c acc sx sy px py ix iy q neg) true true) ∧
    (inX dx = false ∨ inY dy = false → s.cores[c].c1 = false → s.wdg.h = none → s.evr.queue.length < 64 →
      Faults s c (.mac c acc sx sy px py ix iy q neg) 0x2006 ∧ Faults s c (.macxb c acc sx sy px py ix iy q neg) 0x2006 ∧
      Faults s c (.macyb c acc sx sy px py ix iy q neg) 0x2006 ∧ Faults s c (.macb c acc sx sy px py ix iy q neg) 0x2006)

/-- The accumulator instructions of R135, each at distance 1. -/
def Sys2Proof.Stated.AccumulatorResults : Prop :=
  ∀ (s : State) (c : CoreId) (acc : AccNo) (rd ra rb : RegNo), Ready s c →
    let x := issueCtx s c
    let v := x.a[acc].toInt
    let sat := fun (w : Int) =>
      Res.g rd (BitVec.ofInt 32 (max (-(2 ^ 31)) (min (2 ^ 31 - 1) w))) :: if w < -(2 ^ 31) ∨ 2 ^ 31 - 1 < w then [Res.csrOr 0x1] else []
    Gives s c (.aclr c acc) 1 [.acc acc 0] ∧
    Gives s c (.amovw c acc ra) 1 [.acc acc (BitVec.ofInt 72 (x.rg ra).toInt)] ∧
    Gives s c (.amovd c acc ra rb) 1 [.acc acc (BitVec.ofInt 72 ((x.rg rb).toInt * 2 ^ 32 + (x.rg ra).toNat))] ∧
    Gives s c (.asra c acc rb) 1 [.acc acc (BitVec.ofInt 72 (v.fdiv (2 ^ min ((x.rg rb).toNat % 128) 71)))] ∧
    Gives s c (.ardl c rd acc) 1 [.g rd (x.a[acc].extractLsb' 0 32)] ∧
    Gives s c (.ardh c rd acc) 1 [.g rd (x.a[acc].extractLsb' 32 32)] ∧
    Gives s c (.ardx c rd acc) 1 [.g rd ((x.a[acc].extractLsb' 64 8).signExtend 32)] ∧
    Gives s c (.asati c rd acc) 1 (sat v) ∧
    Gives s c (.asatq c rd acc) 1 (sat ((v + 2 ^ 31).fdiv (2 ^ 32)))

/-- The multiply-accumulates of R136 and the accumulator instructions of R135. -/
def Obligations.AccumulatorInstructions : Prop := Stated.MultiplyAccumulate ∧ Stated.AccumulatorResults

/-- JR, BR, CALL and RET outside a delay slot (R105, R106, R122, R138): the word after them still executes, then the target; a call pushes
its return address and s1, a return at depth 1 or more pops them; s1 changes at distance 2. -/
def Obligations.TransfersHaveOneDelaySlot : Prop :=
  ∀ (s : State) (c : CoreId) (ra bc ri : RegNo) (b : Bool) (imm : BitVec 12) (disp : BitVec 20) (at_ : Nat), ReadyFree s c →
    let x := issueCtx s c
    let tgt := x.pc + BitVec.ofInt 32 (4 * disp.toInt)
    let k := (x.rg ri).toNat
    let d := idtEntry s c x.s[0] k s.cores[c].cyc
    Jumps s c (.jr c ra imm) ((x.rg ra + BitVec.ofInt 32 (4 * imm.toInt)) &&& 0xFFFFFFFC) x.link 1 [] ∧
    Jumps s c (.br c bc b disp) (if x.rbit bc = b then tgt else x.pc + 8) x.link 1 [] ∧
    (x.link.length < 16 →
      Jumps s c (.call c 0 disp) tgt ((x.pc + 8, x.s[1]) :: x.link) 2 [.s 1 x.s[1]] ∧
      (ri ≠ 0 → 8 * k + 7 ≤ dLimit x.s[0] → dType d = 2 → descOk d = true →
        CleanWord s (physOf c (dBase x.s[0]) + 8 * k) → CleanWord s (physOf c (dBase x.s[0]) + 8 * k + 4) →
        Jumps s c (.call c ri disp) tgt ((x.pc + 8, x.s[1]) :: x.link) 2 [.s 1 d])) ∧
    (∀ e r, x.link = e :: r → Jumps s c (.ret c at_) e.1 r 2 [.s 1 e.2]) ∧
    (x.link = [] → ∃ t, exec (.ret c at_) s = .next t ∧ OnlyCore s t c ∧ OnlyCtx s t c ∧ GoesOn s t c (x.pc + 4) [] (.endTask at_) ∧
      WritesAfter s t c 1 [])

/-- A return at link stack depth 0 executes its delay slot and then ends the task (R61, R62, R106): here a NOP stands there; the mailbox
stores have completed, MBX_OUT is copied, and the next due entry of the list starts with an empty context and the instance segment that an
instance call loads (R112), or the core goes idle. -/
def Sys2Proof.Stated.ReturnAtDepthZeroEndsTask : Prop :=
  ∀ (s : State) (c : CoreId) (a : Nat) (l : TList), canIssue s c = true → (issueCtx s c).pc.toNat ≤ 0x1FFFF →
    bankBad s [activeBank s c + (issueCtx s c).pc.toNat] = false → s.cores[c].inEvt = false → (issueCtx s c).delay = .endTask a →
    taskList s c = some l → s.cores[c].replay = [] → s.cores[c].mbxOut[0].getLsbD 0 = s.evr.toggle[c] → s.cores[c].mbxStq = [] →
    ∃ t, exec (.nop c) s = .next t ∧ t.tick.now = max s.now a ∧ t.cores[c].mbxSnap = s.cores[c].mbxOut ∧
      (match nextDue l s.tick.n (s.cores[c].pos + 1) with
       | none => t.cores[c].st = .idle ∧ t.cores[c].cyc = s.cores[c].cyc + 1 + 8 + 3 * l.frcap
       | some q =>
           let words := physOf c (dBase l.s0) + 8 * q.2.inst
           let d := idtEntry s c l.s0 q.2.inst (s.cores[c].cyc + 1 + 8 + 3 * l.frcap)
           8 * q.2.inst + 7 ≤ dLimit l.s0 → dType d = 2 → descOk d = true → CleanWord s words → CleanWord s (words + 4) →
           t.cores[c].st = .run ∧ t.cores[c].pos = q.1 ∧ t.cores[c].cyc = s.cores[c].cyc + 1 + 8 + 3 * l.frcap + 8 ∧
           t.cores[c].task.pc = BitVec.ofNat 32 q.2.entry ∧ (∀ r, t.cores[c].task.rg r = 0) ∧ t.cores[c].task.link = [] ∧
           t.cores[c].task.flight = [] ∧ t.cores[c].task.s[0] = l.s0 ∧ t.cores[c].task.s[1] = d)

/-- A task whose list entry is due in tick n is one with n mod d = p (R60), and the entry that follows is the first due one. -/
def Sys2Proof.Stated.DueEntries : Prop :=
  ∀ (t : TList) (n p : Nat),
    (∀ e : TaskE, dueIn n e = true ↔ n % 2 ^ e.dr = e.ph) ∧
    (∀ i e, nextDue t n p = some (i, e) → p ≤ i ∧ t.tasks[i]? = some e ∧ n % 2 ^ e.dr = e.ph ∧
      ∀ j f, p ≤ j → j < i → t.tasks[j]? = some f → n % 2 ^ f.dr ≠ f.ph) ∧
    (nextDue t n p = none → ∀ j f, p ≤ j → t.tasks[j]? = some f → n % 2 ^ f.dr ≠ f.ph)

/-- The end of a task (R61, R62, R106) and the entries that are due (R60). -/
def Obligations.TaskEndsAndNextDueEntry : Prop := Stated.ReturnAtDepthZeroEndsTask ∧ Stated.DueEntries

/-- SLD and SMK (R139): the descriptor that passes R91 stands in s8 to s15 at distance 2; a register outside them is an illegal
instruction, a descriptor that fails a segment load fault. -/
def Obligations.SegmentLoads : Prop :=
  ∀ (s : State) (c : CoreId) (rd ra : RegNo) (imm : BitVec 12), Ready s c →
    let x := issueCtx s c
    let k := (x.rg ra + BitVec.ofNat 32 imm.toNat).toNat
    let d := idtEntry s c x.s[0] k s.cores[c].cyc
    let m := mkDesc (x.rg ra) (x.rg (ra + 1))
    let quiet := s.cores[c].c1 = false ∧ s.wdg.h = none ∧ s.evr.queue.length < 64
    (∀ sg : SegNo, sg.val = rd.val → 8 ≤ rd.val →
      (8 * k + 7 ≤ dLimit x.s[0] → descOk d = true → CleanWord s (physOf c (dBase x.s[0]) + 8 * k) →
        CleanWord s (physOf c (dBase x.s[0]) + 8 * k + 4) → Gives s c (.sld c rd ra imm) 2 [.s sg d]) ∧
      (quiet → (dLimit x.s[0] < 8 * k + 7 ∨ descOk d = false) → Faults s c (.sld c rd ra imm) 0x2005) ∧
      (ra.val % 2 = 0 → descOk m = true → Gives s c (.smk c rd ra) 2 [.s sg m]) ∧
      (quiet → ra.val % 2 = 0 → descOk m = false → Faults s c (.smk c rd ra) 0x2005) ∧
      (quiet → ra.val % 2 = 1 → Faults s c (.smk c rd ra) 0x2002)) ∧
    (rd.val < 8 ∨ 15 < rd.val → quiet → Faults s c (.sld c rd ra imm) 0x2002 ∧ Faults s c (.smk c rd ra) 0x2002)

/-- SWL, SWS and the reads of TB_LO and EVT_FLAGS (R40, R41, R140): the word listed for the offset at distance 3; TB_LO latches TB_HI,
EVT_FLAGS clears what it returns, an SWS reaches MBX_OUT alone. -/
def Obligations.SystemWindow : Prop :=
  ∀ (s : State) (c : CoreId) (rd ra : RegNo) (imm : BitVec 12) (at_ : Nat), Ready s c →
    let x := issueCtx s c
    let tb := max s.now at_
    let o := imm.toNat
    let k := s.cores[c]
    let word : Word :=
      if o = 0x000 then BitVec.ofNat 32 tb else if o = 0x004 then k.tbHi
      else if o = 0x008 then BitVec.ofNat 32 s.tick.shownN else if o = 0x00C then BitVec.ofNat 32 (s.tick.shownN / 2 ^ 32)
      else if o = 0x010 then BitVec.ofNat 32 s.tick.shownTs else if o = 0x014 then BitVec.ofNat 32 (s.tick.shownTs / 2 ^ 32)
      else sysWord s c o tb
    let read := fun (i : Instr) (now : Nat) (v : Word) (tbHi : Word) (fl : BitVec 8) =>
      ∃ t, exec i s = .next t ∧ t = { s with cores := t.cores, tick := { s.tick with now := now } } ∧
        (∀ q : CoreId, q ≠ c → t.cores[q] = s.cores[q]) ∧ GoesOn s t c (nextPc x) x.link .none ∧ WritesAfter s t c 3 [.g rd v] ∧
        t.cores[c].tbHi = tbHi ∧ t.cores[c].evtFlags = fl ∧ t.cores[c].evtPend = k.evtPend ∧ t.cores[c].mbxOut = k.mbxOut
    (o % 4 = 0 →
      read (.swl c rd imm at_) tb word (if o = 0 then BitVec.ofNat 32 (tb / 2 ^ 32) else k.tbHi) (if o = 0x040 then 0 else k.evtFlags)) ∧
    read (.tbLoRead c rd at_) tb (BitVec.ofNat 32 tb) (BitVec.ofNat 32 (tb / 2 ^ 32)) k.evtFlags ∧
    read (.evtFlagsRead c rd) s.now (BitVec.ofNat 32 k.evtFlags.toNat) k.tbHi 0 ∧
    (∀ w : Fin 16, o = 0x200 + 4 * w.val →
      ∃ t, exec (.sws c ra imm) s = .next t ∧ OnlyCore s t c ∧ GoesOn s t c (nextPc x) x.link .none ∧ WritesAfter s t c 1 [] ∧
        t.cores[c].mbxStq = k.mbxStq ++ [(k.cyc, w, x.rg ra)] ∧ t.cores[c].mbxOut = k.mbxOut) ∧
    (k.c1 = false → s.wdg.h = none → s.evr.queue.length < 64 →
      (o % 4 ≠ 0 → at_ ≤ s.now → Faults s c (.swl c rd imm at_) 0x2001) ∧
      (o % 4 ≠ 0 ∨ o < 0x200 ∨ 0x23C < o → Faults s c (.sws c ra imm) 0x2001) ∧ sysWord s c 0x018 0 = BitVec.ofNat 32 (c.val + if s.join.master then 256 else 0))

/-- The CSR instructions, the event flags and the core queries (R141, R142). -/
def Obligations.CsrFlagsAndQueries : Prop :=
  ∀ (s : State) (c : CoreId) (rd ra : RegNo) (n : Fin 8), Ready s c →
    let x := issueCtx s c
    let k := s.cores[c]
    let flag := fun (i : Instr) (r : Res) (fl : BitVec 8) =>
      ∃ t, exec i s = .next t ∧ OnlyCore s t c ∧ GoesOn s t c (nextPc x) x.link .none ∧ WritesAfter s t c 3 [r] ∧
        t.cores[c].evtFlags = fl ∧ t.cores[c].evtPend = k.evtPend
    Gives s c (.csrr c rd) 1 [.g rd x.csr] ∧
    Gives s c (.csrw c ra) 1 [.csrSet (x.rg ra &&& 0x1FF)] ∧
    Gives s c (.csrs c ra) 1 [.csrSet (x.csr ||| (x.rg ra &&& 0x1FF))] ∧
    Gives s c (.csrc c ra) 1 [.csrSet (x.csr &&& ~~~(x.rg ra))] ∧
    flag (.evf c rd) (.g rd (BitVec.ofNat 32 k.evtFlags.toNat)) 0 ∧
    flag (.evtb c rd n) (.b rd (k.evtFlags.getLsbD n)) (k.evtFlags &&& ~~~((1 : BitVec 8) <<< n.val)) ∧
    Gives s c (.evpb c rd n) 3 [.b rd (k.evtPend.getLsbD n)] ∧
    Gives s c (.rcyc c rd) 1 [.g rd (BitVec.ofNat 32 k.cyc)] ∧
    Gives s c (.rlsd c rd) 1 [.g rd (BitVec.ofNat 32 x.link.length)] ∧
    Gives s c (.rctx c rd) 1 [.g rd (BitVec.ofNat 32 (if k.inEvt then 2 ^ 31 ||| k.slot else k.pos))] ∧
    ∀ (y : Ctx) (m : Word), (y.complete (.csrSet m)).csr = m ∧ (y.complete (.csrOr m)).csr = y.csr ||| m

/-- The emulated instructions (R75, R115 to R117, R143): any wait for the service core and the cost of Table 3-13 pass, then every result
stands; a wait is noted in EMUL_WAIT_MAX when the next trap finds its service begun. -/
def Obligations.EmulatedInstructions : Prop :=
  ∀ (s : State) (c : CoreId) (rd ra rb : RegNo), ReadyFree s c →
    let two := fun (f : Nat → Nat → Nat × FFlags) (y : Ctx) =>
      [Res.g rd (BitVec.ofNat 32 (f (y.rg ra).toNat (y.rg rb).toNat).1), Res.csrOr (fCsr (f (y.rg ra).toNat (y.rg rb).toNat).2)]
    let cmp := fun (f : Nat → Nat → Bool × FFlags) (y : Ctx) =>
      [Res.b rd (f (y.rg ra).toNat (y.rg rb).toNat).1, Res.csrOr (fCsr (f (y.rg ra).toNat (y.rg rb).toNat).2)]
    let conv := fun (rn : Bool) (y : Ctx) =>
      [Res.g rd (fToI32 f32 rn (y.rg ra).toNat).1, Res.csrOr (fCsr (fToI32 f32 rn (y.rg ra).toNat).2)]
    let ofInt := fun (v : Ctx → Int) (y : Ctx) => [Res.g rd (BitVec.ofNat 32 (fOfInt f32 (v y)).1), Res.csrOr (fCsr (fOfInt f32 (v y)).2)]
    let div := fun (f : Word → Word → Word → Word × Word × Word) (y : Ctx) =>
      [Res.g rd (f (y.rg (ra + 1)) (y.rg ra) (y.rg rb)).1, Res.g (rd + 1) (f (y.rg (ra + 1)) (y.rg ra) (y.rg rb)).2.1,
       Res.csrOr (f (y.rg (ra + 1)) (y.rg ra) (y.rg rb)).2.2]
    Emulates s c (.fadd c rd ra rb) 96 (two (fAdd f32)) ∧
    Emulates s c (.fsub c rd ra rb) 96 (two (fSub f32)) ∧
    Emulates s c (.fmul c rd ra rb) 104 (two (fMul f32)) ∧
    Emulates s c (.fdiv c rd ra rb) 180 (two (fDiv f32)) ∧
    Emulates s c (.fsqrt c rd ra) 210 (two fun a _ => fSqrt f32 a) ∧
    Emulates s c (.feq c rd ra rb) 88 (cmp (fEq f32)) ∧
    Emulates s c (.flt c rd ra rb) 88 (cmp (fLt f32)) ∧
    Emulates s c (.fle c rd ra rb) 88 (cmp (fLe f32)) ∧
    Emulates s c (.fun c rd ra rb) 88 (cmp (fUn f32)) ∧
    Emulates s c (.ftoi c rd ra) 92 (conv false) ∧
    Emulates s c (.ftoir c rd ra) 92 (conv true) ∧
    Emulates s c (.itof c rd ra) 92 (ofInt fun y => (y.rg ra).toInt) ∧
    Emulates s c (.utof c rd ra) 92 (ofInt fun y => (y.rg ra).toNat) ∧
    (rd.val % 2 = 0 → ra.val % 2 = 0 →
      Emulates s c (.div64u c rd ra rb) 140 (div div64U) ∧ Emulates s c (.div64s c rd ra rb) 140 (div div64S)) ∧
    ∀ q, s.sv.queue = [q] → q.at_ < q.start → q.start < s.cores[c].cyc → q.start - q.at_ < 2 ^ 32 →
      ∃ t, exec (.fadd c rd ra rb) s = .next t ∧ q.start - q.at_ ≤ rn t K.TICK_EMUL_WAIT_MAX ∧ Machine.rb t K.TICK_STATUS 4 = true

/-- The 64-bit divides of R145: quotient and remainder, and their edges. -/
def Sys2Proof.Stated.WideDivideValues : Prop :=
  ∀ hi lo b : Word,
    let nu := hi.toNat * 2 ^ 32 + lo.toNat
    let ns : Int := hi.toInt * 2 ^ 32 + lo.toNat
    let qs := ns.tdiv b.toInt
    (b = 0 → div64U hi lo b = (0xFFFFFFFF, lo, 0x8) ∧ div64S hi lo b = (if 0 ≤ ns then 0x7FFFFFFF else 0x80000000, lo, 0x8)) ∧
    (b ≠ 0 →
      (nu / b.toNat < 2 ^ 32 → (div64U hi lo b).1.toNat = nu / b.toNat ∧ (div64U hi lo b).2.1.toNat = nu % b.toNat ∧ (div64U hi lo b).2.2 = 0) ∧
      (2 ^ 32 ≤ nu / b.toNat → div64U hi lo b = (0xFFFFFFFF, 0, 0x4)) ∧
      (-(2 ^ 31) ≤ qs → qs < 2 ^ 31 → (div64S hi lo b).1.toInt = qs ∧ (div64S hi lo b).2.1.toInt = ns.tmod b.toInt ∧ (div64S hi lo b).2.2 = 0) ∧
      (2 ^ 31 ≤ qs → div64S hi lo b = (0x7FFFFFFF, 0, 0x4)) ∧ (qs < -(2 ^ 31) → div64S hi lo b = (0x80000000, 0, 0x4)))

/-- The rules of R144 and R145 for NaN, zero and conversion edges of binary32. -/
def Sys2Proof.Stated.BinarySpecialValues : Prop :=
  ∀ a b : Word,
    let nan := fun (w : Word) => decide (0x7F800000 < w.toNat % 2 ^ 31)
    let zero := fun (w : Word) => decide (w.toNat % 2 ^ 31 = 0)
    let inf := fun (w : Word) => decide (w.toNat % 2 ^ 31 = 0x7F800000)
    (nan a || nan b → (fAdd f32 a.toNat b.toNat).1 = 0x7FC00000 ∧ (fSub f32 a.toNat b.toNat).1 = 0x7FC00000 ∧
      (fMul f32 a.toNat b.toNat).1 = 0x7FC00000 ∧ (fDiv f32 a.toNat b.toNat).1 = 0x7FC00000 ∧ (fLt f32 a.toNat b.toNat).1 = false ∧
      (fLt f32 a.toNat b.toNat).2.nv = true ∧ (fLe f32 a.toNat b.toNat).1 = false ∧ (fLe f32 a.toNat b.toNat).2.nv = true ∧
      (fEq f32 a.toNat b.toNat).1 = false ∧ (fUn f32 a.toNat b.toNat).1 = true) ∧
    (zero a && zero b → (fEq f32 a.toNat b.toNat).1 = true ∧ (fLt f32 a.toNat b.toNat).1 = false ∧ (fLe f32 a.toNat b.toNat).1 = true) ∧
    (!(nan a) && !(inf a) && !(zero a) && zero b →
      (fDiv f32 a.toNat b.toNat).2.dz = true ∧ (fDiv f32 a.toNat b.toNat).1 % 2 ^ 31 = 0x7F800000 ∧
      ((fDiv f32 a.toNat b.toNat).1.testBit 31 = (a.getLsbD 31 != b.getLsbD 31))) ∧
    (fSqrt f32 0x80000000).1 = 0x80000000 ∧
    (nan a → (fToI32 f32 false a.toNat).1 = 0 ∧ (fToI32 f32 true a.toNat).1 = 0 ∧ (fToI32 f32 false a.toNat).2.nv = true ∧
      (fToI32 f32 true a.toNat).2.nv = true) ∧
    (0x4F000000 ≤ a.toNat → a.toNat ≤ 0x7F800000 → (fToI32 f32 false a.toNat).1 = 0x7FFFFFFF ∧ (fToI32 f32 false a.toNat).2.nv = true ∧
      (fToI32 f32 true a.toNat).1 = 0x7FFFFFFF ∧ (fToI32 f32 true a.toNat).2.nv = true)

/-- The 64-bit divides (R145) and the special values of binary32 (R144, R145). -/
def Obligations.EmulatedArithmeticValues : Prop := Stated.WideDivideValues ∧ Stated.BinarySpecialValues

/-- An access that a segment or the memory map does not permit is a segment fault (R38, R92); a branch, call or return in a delay slot is a
delay-slot fault, a call at depth 16 a link stack overflow, and a word of no row an illegal instruction (R92, R103 to R105, R118). -/
def Sys2Proof.Stated.CoreFaults : Prop :=
  ∀ (s : State) (c : CoreId) (r q : RegNo) (sg : SegNo) (b : Bool) (d12 : BitVec 12) (d20 : BitVec 20) (at_ : Nat) (w : Word), Ready s c →
    s.cores[c].c1 = false → s.wdg.h = none → s.evr.queue.length < 64 →
    let x := issueCtx s c
    let o := fun (z : Nat) => (x.rg q + BitVec.ofInt 32 (d12.toInt * z)).toNat
    ((segOk x.s[sg] false 1 (o 1) && inRegion (dBase x.s[sg] + o 1) 1) = false → Faults s c (.ldb c r q sg d12) 0x2001) ∧
    ((segOk x.s[sg] false 2 (o 2) && inRegion (dBase x.s[sg] + o 2) 2) = false → Faults s c (.ldh c r q sg d12) 0x2001) ∧
    ((segOk x.s[sg] false 4 (o 4) && inRegion (dBase x.s[sg] + o 4) 4) = false → Faults s c (.ldw c r q sg d12) 0x2001) ∧
    ((segOk x.s[sg] true 1 (o 1) && inRegion (dBase x.s[sg] + o 1) 1) = false → Faults s c (.stb c r q sg d12) 0x2001) ∧
    ((segOk x.s[sg] true 2 (o 2) && inRegion (dBase x.s[sg] + o 2) 2) = false → Faults s c (.sth c r q sg d12) 0x2001) ∧
    ((segOk x.s[sg] true 4 (o 4) && inRegion (dBase x.s[sg] + o 4) 4) = false → Faults s c (.stw c r q sg d12) 0x2001) ∧
    (x.delay ≠ .none → Faults s c (.br c r b d20) 0x2003 ∧ Faults s c (.call c r d20) 0x2003 ∧ Faults s c (.ret c at_) 0x2003 ∧
      Faults s c (.jr c r d12) 0x2003 ∧ Faults s c (.fadd c r q q) 0x2002) ∧
    (x.delay = .none → x.link.length = 16 → Faults s c (.call c r d20) 0x2004) ∧
    (decode c w = none → (w.toNat / 2 ^ 26 < 0x38 ∨ w.toNat / 2 ^ 26 = 0x3F) → Faults s c (.illegalInstruction c w) 0x2002) ∧
    (decode c w = none → x.delay = .none → 0x38 ≤ w.toNat / 2 ^ 26 → w.toNat / 2 ^ 26 < 0x3F → ServiceBegun s c →
      ∃ t, exec (.illegalInstruction c w) s = .next t ∧ t.cores[c].st = .aband ∧ t.cores[c].lastFault = 0x2002 ∧
        s.cores[c].cyc + serviceWait s c + 88 ≤ t.cores[c].abCyc ∧ t.cores[c].abCyc ≤ s.cores[c].cyc + serviceWait s c + 210 ∧ t.mem = s.mem)

/-- A second C1 fault of a core in one tick is C2: the core is stopped for the rest of the tick (R74, R113). -/
def Sys2Proof.Stated.SecondFaultStopsCore : Prop :=
  ∀ (s : State) (c : CoreId) (w : Word), Ready s c → decode c w = none → w.toNat / 2 ^ 26 < 0x38 → s.cores[c].c1 = true →
    ∃ t, exec (.illegalInstruction c w) s = .next t ∧ t.cores[c].st = .stopped ∧ t.cores[c].c2 = true ∧ t.cores[c].ctx.flight = []

/-- The C1 faults of the cores, and a second one in a tick (R74, R103 to R105, R113, R118). -/
def Obligations.CoreFaultHandling : Prop := Stated.CoreFaults ∧ Stated.SecondFaultStopsCore

/-- RESULT_COMPLETE (R99, R100): everything due by the core's next cycle has been written, in order; what is read in any later cycle is
the same. -/
def Sys2Proof.Stated.ResultsComplete : Prop :=
  ∀ (s : State) (c : CoreId), ∃ t, exec (.resultComplete c) s = .next t ∧ OnlyCore s t c ∧ OnlyCtx s t c ∧
    t.cores[c].cyc = s.cores[c].cyc ∧ SameRegs t.cores[c].ctx (regsAt s c s.cores[c].cyc) ∧
    (∀ j, s.cores[c].cyc ≤ j → SameRegs (regsAt t c j) (regsAt s c j)) ∧ ∀ f, t.cores[c].ctx.flight.head? = some f → s.cores[c].cyc < f.due

/-- What a completing result writes (R86, R99), and RESULT_COMPLETE (R99, R100). -/
def Obligations.ResultsCompleteInOrder : Prop := Stated.ResultWritesItsRegister ∧ Stated.ResultsComplete

/-- EVENT_TRIGGER (R51, R65): in RUN as SOLO or ACTIVE the slot's record, its flags and its count are written; in any other state or role a
trigger is ignored; one at the next edge or after it waits for that tick. -/
def Sys2Proof.Stated.TriggerWritesRecordAndFlags : Prop :=
  ∀ (s : State) (src at_ cyc : Nat),
    (beyondEdge s (max s.now at_) = true →
      exec (.eventTrigger src at_ cyc) s = .next (holdLate (setNow s at_) (.eventTrigger src (max s.now at_) cyc))) ∧
    (beyondEdge s (max s.now at_) = false → (s.mode ≠ .run ∨ s.role = .standby ∨ s.role = .syncing) →
      exec (.eventTrigger src at_ cyc) s = .next (setNow s at_)) ∧
    ∀ c k l e, beyondEdge s (max s.now at_) = false → s.mode = .run → drives s.role = true → slotOf s src = some (c, k, l, e) → cellsWf 0 s.mem.cells = true →
      let sl := s.cores[c].slots[k]
      let ts := if sl.pending then sl.ts else max s.now at_
      ∃ t, exec (.eventTrigger src at_ cyc) s = .next t ∧
        readMem t (l.evrec + 16 * k.val) 16 = leBytes 8 ts ++ leBytes 2 src ++ [0, 0] ++ leBytes 4 (min (sl.count.toNat + 1) 0xFFFFFFFF) ∧
        (∀ a, a < l.evrec + 16 * k.val ∨ l.evrec + 16 * k.val + 16 ≤ a → cellGet 0 t.mem.cells a = cellGet 0 s.mem.cells a) ∧
        (∀ q : Fin 8, t.cores[c].evtFlags.getLsbD q = (s.cores[c].evtFlags.getLsbD q || decide (q = k)) ∧
          t.cores[c].evtPend.getLsbD q = (s.cores[c].evtPend.getLsbD q || decide (q = k))) ∧
        t.cores[c].slots[k].pending = true ∧ t.cores[c].slots[k].count.toNat = min (sl.count.toNat + 1) 0xFFFFFFFF ∧ t.cores[c].slots[k].ts = ts

/-- EVENT_TAKE (R66, R67): at a quiet boundary the core switches in 8 cycles to the event context with the slot's task; the interrupted
task keeps its registers; the slot is no longer pending. -/
def Sys2Proof.Stated.EventTaskStarts : Prop :=
  ∀ (s : State) (c : CoreId) (at_ cyc : Nat) (l : TList) (k : Fin 8) (e : TaskE), s.mode = .run → drives s.role = true → s.tick.phase = .l →
    quiet s c = true → s.cores[c].st = .run → taskList s c = some l → takeSlot s c = some k → l.slots[k.val]? = some e →
    let words := physOf c (dBase l.s0) + 8 * e.inst
    let d := idtEntry s c l.s0 e.inst s.cores[c].cyc
    8 * e.inst + 7 ≤ dLimit l.s0 → dType d = 2 → descOk d = true → CleanWord s words → CleanWord s (words + 4) →
    ∃ t, exec (.eventTake c at_ cyc) s = .next t ∧ t.tick.now = max s.now at_ ∧ t.cores[c].st = .run ∧ t.cores[c].inEvt = true ∧
      t.cores[c].resume = true ∧ t.cores[c].slot = k.val ∧ t.cores[c].cyc = s.cores[c].cyc + 8 ∧ t.cores[c].slots[k].pending = false ∧
      t.cores[c].slots[k].count = 0 ∧ t.cores[c].evtPend.getLsbD k = false ∧ t.cores[c].evtFlags = s.cores[c].evtFlags ∧
      SameRegs t.cores[c].task (regsAt s c s.cores[c].cyc) ∧ t.cores[c].task.pc = (issueCtx s c).pc ∧ t.cores[c].task.link = (issueCtx s c).link ∧
      t.cores[c].evt.pc = BitVec.ofNat 32 e.entry ∧ (∀ r, t.cores[c].evt.rg r = 0) ∧ t.cores[c].evt.link = [] ∧
      t.cores[c].evt.s[0] = l.s0 ∧ t.cores[c].evt.s[1] = d ∧
      (∀ q : CoreId, q ≠ c → t.cores[q] = s.cores[q]) ∧ t.mem = s.mem

/-- TASK_ABANDON (R62, R67, R74, R113): within 64 cycles of the detection, and not before the 8 of a switch or a task start, a cyclic task
gives way to the next due entry, an event task to the task that it interrupted. -/
def Sys2Proof.Stated.AbandonmentCompletes : Prop :=
  ∀ (s : State) (c : CoreId) (n at_ : Nat), s.cores[c].st = .aband →
    let cyc := s.cores[c].abCyc + max 8 (min n 64)
    (s.cores[c].inEvt = true → s.cores[c].resume = true →
      ∃ t, exec (.taskAbandon c n at_) s = .next t ∧ OnlyCore (setNow s at_) t c ∧ t.cores[c].st = .run ∧ t.cores[c].inEvt = false ∧
        t.cores[c].cyc = cyc ∧ t.cores[c].task = s.cores[c].task) ∧
    (s.cores[c].inEvt = false → ∀ l, taskList s c = some l →
      ∃ t, exec (.taskAbandon c n at_) s = .next t ∧
        match nextDue l s.tick.n (s.cores[c].pos + 1) with
        | none => t.cores[c].st = .idle ∧ t.cores[c].cyc = s.cores[c].abCyc + min n 64
        | some q =>
            let words := physOf c (dBase l.s0) + 8 * q.2.inst
            let d := idtEntry s c l.s0 q.2.inst cyc
            8 * q.2.inst + 7 ≤ dLimit l.s0 → dType d = 2 → descOk d = true → CleanWord s words → CleanWord s (words + 4) →
            t.cores[c].cyc = cyc ∧ t.cores[c].st = .run ∧ t.cores[c].pos = q.1 ∧ t.cores[c].task.pc = BitVec.ofNat 32 q.2.entry ∧
              t.cores[c].task.link = [] ∧ t.cores[c].task.s[1] = d)

/-- Triggers, event tasks and abandoned tasks (R65 to R67, R74, R113). -/
def Obligations.EventAndAbandonedTasks : Prop := Stated.TriggerWritesRecordAndFlags ∧ Stated.EventTaskStarts ∧ Stated.AbandonmentCompletes

/-- SCRUB_LINE (R36, R37): the eight words of the line are read, single-bit errors in them corrected and counted, and the scrub moves on. -/
def Sys2Proof.Stated.ScrubCorrectsLine : Prop :=
  ∀ s : State, executiveRuns s = true → s.mem.single.Nodup → s.mem.double = [] → s.mem.failed = [] →
    ∃ t, exec .scrubLine s = .next t ∧ t.mem.scrub = (s.mem.scrub + 1) % 131072 ∧ t.mem.cells = s.mem.cells ∧
      (∀ i, i < 8 → 0x10000000 + s.mem.scrub * 64 + 8 * i ∉ t.mem.single) ∧
      (∀ w, w ∈ t.mem.single → w ∈ s.mem.single) ∧ t.mem.ceCnt + t.mem.single.length = s.mem.ceCnt + s.mem.single.length ∧ t.cores = s.cores

/-- A single-bit error in a word of the shared SRAM is corrected and counted by the read that finds it; a double-bit error marks the word as
failed and is a C3 fault with event 16#B00B; a read of a marked word changes nothing (R36). -/
def Sys2Proof.Stated.SharedMemoryErrors : Prop :=
  ∀ (s : State) (p port c : Nat), 0x10000000 ≤ p →
    (s.mem.failed.contains (eccWord p) = true → eccRead s p port c = s) ∧
    (s.mem.failed.contains (eccWord p) = false → s.mem.single.contains (eccWord p) = true → s.mem.double.contains (eccWord p) = false →
      eccRead s p port c = { s with mem := { s.mem with single := s.mem.single.erase (eccWord p), ceCnt := s.mem.ceCnt + 1 } }) ∧
    (s.mem.failed.contains (eccWord p) = false → s.mem.double.contains (eccWord p) = true → s.wdg.h = none → s.evr.queue.length < 64 →
      (eccRead s p port c).mem.failed = insertNat (eccWord p) s.mem.failed ∧ (eccRead s p port c).mem.cells = s.mem.cells ∧
      (∃ h, (eccRead s p port c).wdg.h = some h ∧ h.cls = 3 ∧ h.code = 0xB00B ∧ h.ts = s.now) ∧
      ∃ o, (eccRead s p port c).evr.queue = s.evr.queue ++ [o] ∧ o.code = 0xB00B)

/-- What a core writes is seen by loads of any core from 2 cycles on, and of two stores of one cycle that of the higher core remains (R35). -/
def Sys2Proof.Stated.StoreVisibility : Prop :=
  ∀ (m : Memory) (c1 c2 : Nat) (cyc a : Nat) (b1 b2 : Byte) (s : State), c1 < c2 → s.mem = { m with stq := insertStore ⟨cyc, c1, a, [b1]⟩ (insertStore ⟨cyc, c2, a, [b2]⟩ []) } →
    (∀ j, cyc + 2 ≤ j → seenByte s a j = b2) ∧ (∀ j, j < cyc + 2 → seenByte s a j = cellGet 0 m.cells a) ∧
    (cellsWf 0 m.cells = true → cellGet 0 (flushStores s).mem.cells a = b2)

/-- The stores of R128 and what every core sees of stores (R35). -/
def Obligations.StoresAndTheirVisibility : Prop := Stated.StoreResults ∧ Stated.StoreVisibility

/-- Every well-formed instruction that has a word of its own is read back from it (R95 to R97, R118 to R143): decode of encode is the
instruction, without what the outside reports beside the word. -/
def Obligations.DecodeOfEncode : Prop :=
  ∀ (i : Instr) (w : Word), i.wf = true → encode i = some w → (∀ c v, i ≠ .illegalInstruction c v) → ∃ c, decode c w = some (plain i)

/-- A word that decodes spells one instruction, which is well formed, and every bit of the word is a bit of its encoding: no reserved
field passes unread (R118). -/
def Obligations.EncodeOfDecode : Prop :=
  ∀ (c : CoreId) (w : Word) (i : Instr), decode c w = some i → i.wf = true ∧ encode i = some w

/-- Words written out from the encoding tables decode to their instructions. -/
def Obligations.WordsOfTheTables : Prop :=
  ∀ c : CoreId, decode c 0x58802005 = some (.ldw c 4 0 2 5) ∧ decode c 0x70C42803 = some (.mulq c 6 4 5) ∧
    decode c 0x2CA0999A = some (.ori c 5 0 0x999A) ∧ decode c 0x34A55999 = some (.orhi c 5 5 0x5999) ∧
    decode c 0x64C03002 = some (.stw c 6 0 3 2) ∧ decode c 0 = some (.nop c) ∧ decode c 0xB4000000 = some (.ret c 0) ∧ decode c 0x98000000 = none

/-- LINK ENABLE (R264, R265, R283): a link whose frames fit the period is enabled; one that does not is refused with event 16#4009 and its
ENABLE stays; a transmitting link that is disabled starts a safe burst of eight frames, after which it is DISABLED. -/
def Sys2Proof.Stated.LinkEnableAndDisable : Prop :=
  ∀ (s : State) (k : Fin 16), ParWf s →
    let n := heads s k
    (40 * (24 + 32 * n) + 60 * n + 2000 ≤ 1000 * periodT s →
      ∃ t, exec (.linkEnableWrite k true) s = .next t ∧ rn t (K.LINKk_ENABLE k) = 1 ∧ (∀ q, q ≠ K.LINKk_ENABLE k → rw t q = rw s q) ∧
        t = { s with par := t.par }) ∧
    (1000 * periodT s < 40 * (24 + 32 * n) + 60 * n + 2000 → s.evr.queue.length < 64 →
      ∃ t, exec (.linkEnableWrite k true) s = .next t ∧ rw t (K.LINKk_ENABLE k) = rw s (K.LINKk_ENABLE k) ∧
        Machine.rb t (K.LINKk_STATUS k) 4 = true ∧ t.links = s.links ∧ ∃ o, t.evr.queue = s.evr.queue ++ [o] ∧ o.code = 0x4009) ∧
    (1 ≤ linkState s k → linkState s k ≤ 3 →
      ∃ t, exec (.linkEnableWrite k false) s = .next t ∧ rn t (K.LINKk_ENABLE k) = 0 ∧ t.links[k].burst = 8 ∧ t.links[k].burstAt = s.now ∧
        t.links[k].closing = true ∧ (∀ q : Fin 16, q ≠ k → t.links[q] = s.links[q]) ∧ t.mem = s.mem)

/-- SAFE_BURST_FRAME (R283): the frame leaves at its instant with TYPE 16#13, the next is due 50 µs later, and the last closes the link. -/
def Sys2Proof.Stated.SafeBurstSpacing : Prop :=
  ∀ (s : State) (k : Fin 16), ParWf s → s.pair.relDue = false → 0 < s.links[k].burst →
    ∃ t b, exec (.safeBurstFrame k) s = .next t ∧ t.tick.now = max s.now s.links[k].burstAt ∧
      t.out = .link k.val (max s.now s.links[k].burstAt) (.sof :: .data 0x13 :: b) :: s.out ∧
      t.links[k].burst = s.links[k].burst - 1 ∧ t.links[k].burstAt = s.links[k].burstAt + 5000 ∧
      (s.links[k].burst = 1 → s.links[k].closing = true → linkState t k = 0) ∧
      (1 < s.links[k].burst → linkState t k = linkState s k) ∧ (∀ q : Fin 16, q ≠ k → t.links[q] = s.links[q]) ∧ t.mem = s.mem

/-- Frames that reach a link (R253, R266, R267, R284, R369, R372): an upstream frame is held for the next edge, unless one that answers the last
frame sent is held already or it is complete at the edge or after it; a downstream frame heard in LISTEN is counted, and one that is intact,
there or in step 9 of a start, is the witness of the partner's transmission. -/
def Sys2Proof.Stated.LinkFramesReceived : Prop :=
  ∀ (s : State) (k : Fin 16) (bytes : List Byte) (arr : List Nat) (at_ : Nat) (ok : Bool),
    (beyondEdge s (max s.now at_) = false → answered s.links[k] = none →
      ∃ t, exec (.upstreamFrame k bytes arr at_) s = .next t ∧ t.links[k].up = some ⟨bytes, arr, max s.now at_⟩ ∧
      t.links[k].last = s.links[k].last ∧ (∀ q : Fin 16, q ≠ k → t.links[q] = s.links[q]) ∧ t.par = s.par ∧ t.mem = s.mem ∧ t.evr = s.evr) ∧
    (beyondEdge s (max s.now at_) = true ∨ answered s.links[k] ≠ none → exec (.upstreamFrame k bytes arr at_) s = .next (setNow s at_)) ∧
    (s.role = .solo → linkState s k ≠ 5 →
      exec (.listenFrame k ok at_) s =
        .next (if ok && decide (s.start.step = .role) then { setNow s at_ with pair := { s.pair with witness := some (max s.now at_, k.val) } } else setNow s at_)) ∧
    (s.role = .standby ∨ s.role = .syncing ∨ linkState s k = 5 →
      ∃ t, exec (.listenFrame k ok at_) s = .next t ∧ t.links = s.links ∧ t.mem = s.mem ∧
        (ok = true → rw t (K.LINKk_LISTEN_OK_CNT k) = satInc (rw s (K.LINKk_LISTEN_OK_CNT k)) ∧ t.pair.witness = some (max s.now at_, k.val)) ∧
        (ok = false → rw t (K.LINKk_LISTEN_ERR_CNT k) = satInc (rw s (K.LINKk_LISTEN_ERR_CNT k)) ∧ t.pair = s.pair))

/-- Link loss (R282): the edge at which the consecutive failures of an UP link reach LLOSS_LIM declares it, with event 16#4005. -/
def Sys2Proof.Stated.LinkLossDeclared : Prop :=
  ∀ (s : State) (k : Fin 16), ParWf s → drives s.role = true → linkState s k = 2 → s.links[k].burst = 0 → s.links[k].last ≠ none →
    answered s.links[k] = none → ((s.links[k].buf.getD 0 0).getLsbD 0 = true → s.links[k].restartPrev = true) → s.evr.queue.length < 64 →
    (s.links[k].fail + 1 < rn s (K.LINKk_LLOSS_LIM k) → linkState (linkTransition s k) k = 2 ∧ (linkTransition s k).links[k].fail = s.links[k].fail + 1) ∧
    (rn s (K.LINKk_LLOSS_LIM k) ≤ s.links[k].fail + 1 → linkState (linkTransition s k) k = 3 ∧
      rw (linkTransition s k) (K.LINKk_LOSS_CNT k) = satInc (rw s (K.LINKk_LOSS_CNT k)) ∧
      ∃ o r, (linkTransition s k).evr.queue = s.evr.queue ++ o :: r ∧ o.code = 0x4005)

/-- The field links: enable and disable, safe bursts, frames, loss (R253, R264 to R266, R282 to R284, R372). -/
def Obligations.FieldLinks : Prop := Stated.LinkEnableAndDisable ∧ Stated.SafeBurstSpacing ∧ Stated.LinkFramesReceived ∧ Stated.LinkLossDeclared

/-- ENC_TRANSITION (R292, R294): in incremental mode one changed track counts up or down by one, with INVERT reversing the sense; a change of both
tracks at once is a decoding error that leaves the count, and where the other track's change was counted at the same instant that count is
taken back (the model's reading of two commands, log 129). -/
def Sys2Proof.Stated.EncoderCounts : Prop :=
  ∀ (s : State) (k : Fin 4) (a b z : Bool) (at_ : Nat), s.enc.on = true → encMode s k = 0 → beyondEdge s at_ = false →
    let p := s.enc.ports[k]
    let pos := fun (x y : Bool) => if x = false ∧ y = false then 0 else if x = true ∧ y = false then 1 else if x = true ∧ y = true then 2 else 3
    let fwd : Bool := decide ((pos p.a p.b + 1) % 4 = pos a b)
    let up := if Machine.rb s (K.ENCk_INVERT k) 0 then !fwd else fwd
    let other := if p.a ≠ a then p.lastB else p.lastA
    let one := (p.a ≠ a ∧ p.b = b) ∨ (p.a = a ∧ p.b ≠ b)
    (one → other = some (max s.now at_) →
      ∃ t, exec (.encTransition k a b z at_) s = .next t ∧ t.enc.ports[k].trans = p.trans.tail ∧ t.enc.ports[k].count = (encUncount p).count ∧
        t.enc.ports[k].a = a ∧ t.enc.ports[k].b = b ∧ (encOn s k = true → rw t (K.ENCk_ILL_CNT k) = satInc (rw s (K.ENCk_ILL_CNT k)))) ∧
    (one → other ≠ some (max s.now at_) →
      ∃ t, exec (.encTransition k a b z at_) s = .next t ∧ t.enc.ports[k].count = p.count + (if up then 1 else -1) ∧ t.enc.ports[k].a = a ∧
        t.enc.ports[k].b = b ∧ t.enc.ports[k].lastTs = max s.now at_ ∧ t.enc.ports[k].zFound = z ∧
        (∀ q : Fin 4, q ≠ k → t.enc.ports[q] = s.enc.ports[q]) ∧ t.mem = s.mem ∧ t.cores = s.cores) ∧
    (p.a ≠ a → p.b ≠ b →
      ∃ t, exec (.encTransition k a b z at_) s = .next t ∧ t.enc.ports[k].count = p.count ∧ t.enc.ports[k].trans = p.trans ∧ t.enc.ports[k].a = a ∧
        t.enc.ports[k].b = b ∧ (encOn s k = true → rw t (K.ENCk_ILL_CNT k) = satInc (rw s (K.ENCk_ILL_CNT k)) ∧ t.enc.ports[k].homed = false) ∧ t.mem = s.mem)

/-- ENC_INDEX, ENC_LINE_BREAK, ENC_LINE_RETURN and ENC_SUPPLY_OVERLOAD (R291, R293, R295). -/
def Sys2Proof.Stated.EncoderLines : Prop :=
  ∀ (s : State) (k : Fin 4) (line : Fin 3) (at_ cyc : Nat), beyondEdge s at_ = false → beyondEdge s (max s.now at_) = false →
    let p := s.enc.ports[k]
    (s.enc.on = true → encMode s k = 0 →
      ∃ t, exec (.encIndex k at_ cyc) s = .next t ∧ t.enc.ports[k].zts = max s.now at_ ∧ t.enc.ports[k].zseen = true ∧ t.enc.ports[k].count = p.count) ∧
    (∃ t, exec (.encLineBreak k line at_) s = .next t ∧
      (if line = 0 then t.enc.ports[k].brkA else if line = 1 then t.enc.ports[k].brkB else t.enc.ports[k].brkZ) = true ∧
      t.enc.ports[k].count = p.count ∧
      (line ≠ 2 → encOn s k = true → encMode s k = 0 → rw t (K.ENCk_LINE_CNT k) = satInc (rw s (K.ENCk_LINE_CNT k)) ∧ t.enc.ports[k].homed = false)) ∧
    (∃ t, exec (.encLineReturn k line at_) s = .next t ∧
      (if line = 0 then t.enc.ports[k].brkA else if line = 1 then t.enc.ports[k].brkB else t.enc.ports[k].brkZ) = false ∧
      t.enc.ports[k].count = p.count ∧ t.par = s.par) ∧
    (encSupplyOn s k = true → ∃ t, exec (.encSupplyOverload k at_) s = .next t ∧ Machine.rb t (K.ENCk_STATUS k) 9 = true ∧ t.enc = s.enc ∧ t.mem = s.mem)

/-- Incremental encoder ports (R291 to R295). -/
def Obligations.IncrementalEncoders : Prop := Stated.EncoderCounts ∧ Stated.EncoderLines

/-- SERIAL_REQUEST and SERIAL_SAMPLE (R297 to R299): the request's instant lies LEAD before the next edge, and an SSI frame that is complete is a good
sample at the instant of the request, with its angle. -/
def Sys2Proof.Stated.SerialSamples : Prop :=
  ∀ (s : State) (k : Fin 4) (start nE nW : Bool) (data : BitVec 40) (crc : BitVec 6) (at_ : Nat),
    (encOn s k = true → encMode s k ≠ 0 → s.tick.seqOn = true → ∃ t, exec (.serialRequest k) s = .next t ∧
      t.enc.ports[k].req = some (max s.now (s.tick.e0 + s.tick.k * 100 * s.tick.t - 100 * encLead s k)) ∧
      t.enc.ports[k].samples = s.enc.ports[k].samples ∧ t.par = s.par ∧ t.mem = s.mem) ∧
    ∀ ts, beyondEdge s at_ = false → s.enc.ports[k].req = some ts → encMode s k = 1 → s.enc.ports[k].brkB = false → rn s (K.ENCk_CODE k) = 0 →
      ∃ t, exec (.serialSample k start data nE nW crc at_) s = .next t ∧ t.enc.ports[k].req = none ∧ t.enc.ports[k].good = true ∧
        t.enc.ports[k].data = data.toNat % 2 ^ rn s (K.ENCk_DATABITS k) ∧ t.enc.ports[k].lastTs = ts ∧
        t.enc.ports[k].samples = (ts, serialAngle s k (data.toNat % 2 ^ rn s (K.ENCk_DATABITS k))) :: s.enc.ports[k].samples ∧ t.par = s.par

/-- ENC ENABLE and MODE writes (R16, R294, R297, R317): a serial port whose LEAD and TMONO exceed the period is refused; a change of MODE or INVERT of
a disabled port sets its count to 0, and one of an enabled port is rejected and counted. -/
def Sys2Proof.Stated.EncoderConfiguration : Prop :=
  ∀ (s : State) (k : Fin 4) (inv : Bool) (v : Word), ParWf s →
    (encMode s k = 0 → encOn s k = false → encBroken s k = false →
      ∃ t, exec (.encEnableWrite k true) s = .next t ∧ encOn t k = true ∧ t.enc.ports[k].homed = decide (rn s (K.ENCk_ZMODE k) = 0) ∧
        t.enc.ports[k].count = s.enc.ports[k].count ∧ t.mem = s.mem) ∧
    (encMode s k ≠ 0 → periodT s < encLead s k + rn s (K.ENCk_TMONO k) →
      ∃ t, exec (.encEnableWrite k true) s = .next t ∧ encOn t k = encOn s k ∧ Machine.rb t (K.ENCk_STATUS k) 10 = true ∧ t.enc = s.enc) ∧
    (∃ t, exec (.encEnableWrite k false) s = .next t ∧ encOn t k = false ∧ t.enc = s.enc ∧ t.mem = s.mem) ∧
    (encOn s k = true → ∃ t, exec (.encModeWrite k inv v) s = .next t ∧ t.enc = s.enc ∧ rw t (K.ENCk_MODE k) = rw s (K.ENCk_MODE k) ∧
      rw t (K.ENCk_INVERT k) = rw s (K.ENCk_INVERT k) ∧ rw t 0x500000F = satInc (rw s 0x500000F)) ∧
    (encOn s k = false → (inv = true ∨ v.toNat ≤ 2) →
      ∃ t, exec (.encModeWrite k inv v) s = .next t ∧ t.enc.ports[k].count = 0 ∧ t.enc.ports[k].homed = false ∧
        (if inv then rw t (K.ENCk_INVERT k) = v &&& 1 else rw t (K.ENCk_MODE k) = v) ∧ (∀ q : Fin 4, q ≠ k → t.enc.ports[q] = s.enc.ports[q]))

/-- Serial encoder ports, and the configuration of the ports (R16, R294, R297 to R299, R317). -/
def Obligations.SerialEncodersAndConfiguration : Prop := Stated.SerialSamples ∧ Stated.EncoderConfiguration

/-- LOOP_UPDATE (R322, R330): the first due loop leaves the list, its update is complete j × 160 ns after the start of Phase L, a loop that is not
DISABLED counts it and takes the next SEQ. -/
def Sys2Proof.Stated.LoopUpdateTakesFirstDue : Prop :=
  ∀ (s : State) (n : Fin 96) (r : List Nat), ParWf s → s.loop.due = n.val :: r →
    ∃ t, exec .loopUpdate s = .next t ∧ t.loop.due = r ∧ t.loop.done = s.loop.done + 1 ∧
      t.tick.now = max s.now (s.tick.edgeTs + 200 + 16 * (s.loop.done + 1)) ∧
      ((loopRec s n).state = 0 → t.loop.rt = s.loop.rt ∧ t.par = s.par ∧ t.ret = s.ret) ∧
      ((loopRec s n).state ≠ 0 → t.loop.rt[n].seq = s.loop.rt[n].seq + 1 ∧ t.loop.rt[n].updated = true ∧
        rw t (K.LOOPk_UPD_CNT n) = satInc (rw s (K.LOOPk_UPD_CNT n)) ∧ rw t (K.LOOPk_U_LAST n) = t.loop.rt[n].u)

/-- The control law of an OPEN loop (R330): without a run and without a forced open its output is the snapshot FF within the limits, and the integrator
stands. -/
def Sys2Proof.Stated.OpenLoopLaw : Prop :=
  ∀ (s : State) (n : LoopNo) (q : LoopRec) (y g w : Word) (cam : Option Cam) (frozen : Bool), (field (rw s (K.LOOPk_REFMODE n)) 1 0).toNat = 0 →
    q.flag 2 = false →
    let o := loopLaw s n q y g w 1 cam false frozen
    o.y = y ∧ o.r = s.loop.rt[n].sp ∧ o.i = q.i ∧ o.vv = s.loop.rt[n].ff ∧ o.u = (loopLimit s n s.loop.rt[n].ff q.uf (loopH s n)).1 ∧ o.first = false

/-- LOOP ENABLE (R320, R337, R338): a DISABLED loop of the image with a valid configuration becomes OPEN; an invalid one is refused with event
16#5006, a loop beyond the image's is rejected; a disabled loop is DISABLED. -/
def Sys2Proof.Stated.LoopEnableStates : Prop :=
  ∀ (s : State) (n : Fin 96),
    (n.val < nloop s → (loopRec s n).state = 0 → loopCfgFail s n = 0 →
      ∃ t, exec (.loopEnableWrite n true) s = .next t ∧ (loopRec t n).state = 1 ∧ (loopRec t n).flag 5 = false ∧ (loopRec t n).flag 2 = false ∧
        t.loop.rt[n].seq = 0 ∧ (∀ m : Fin 96, m ≠ n → loopRec t m = loopRec s m) ∧ t.par = s.par ∧ t.mem = s.mem) ∧
    (n.val < nloop s → (loopRec s n).state = 0 → loopCfgFail s n ≠ 0 → s.evr.queue.length < 64 →
      ∃ t o, exec (.loopEnableWrite n true) s = .next t ∧ loopRec t n = loopRec s n ∧ t.evr.queue = s.evr.queue ++ [o] ∧ o.code = 0x5006 ∧
        o.pay = leBytes 4 n.val ++ leBytes 4 (loopCfgFail s n) ∧ Machine.rb t (K.LOOPk_STATUS n) 4 = true) ∧
    (nloop s ≤ n.val → ∃ t, exec (.loopEnableWrite n true) s = .next t ∧ t.ret = s.ret ∧ t.loop = s.loop ∧ rw t 0x600000F = satInc (rw s 0x600000F)) ∧
    (∃ t, exec (.loopEnableWrite n false) s = .next t ∧ (loopRec t n).state = 0 ∧ ∀ m : Fin 96, m ≠ n → (loopRec t m).i = (loopRec s m).i)

/-- IDENT_COMPLETE (R347, R353): a run in IDENT whose identification was not complete is complete, with nothing reported before Phase O; what Phase O
then reports is a proposal, applied or not, or INVALID with a reason. -/
def Sys2Proof.Stated.IdentificationCompletes : Prop :=
  ∀ (s : State) (r : TuneRun) (at_ : Nat) (h : r.loop < 96), s.loop.run = some r → r.ident = true → r.found = none →
    ∃ t, exec (.identComplete at_) s = .next t ∧ t.loop.run = some { r with found := some (identify s ⟨r.loop, h⟩) } ∧ t.par = s.par ∧
      t.tick.now = max s.now at_ ∧ t.mem = s.mem ∧ t.cores = s.cores ∧ rn (identEnd t) (K.TUNEk_PROP_STATE r.loop) % 4 ≠ 0 ∧
      (identEnd t).loop.run = none

/-- The loop engine: updates, the law of an OPEN loop, ENABLE, identification (R320, R322, R330, R337, R338, R353). -/
def Obligations.LoopEngine : Prop := Stated.LoopUpdateTakesFirstDue ∧ Stated.OpenLoopLaw ∧ Stated.LoopEnableStates ∧ Stated.IdentificationCompletes

/-- Reception (R414, R417 to R419): the first matching filter sends a frame to its buffer or to the FIFO of 16, a frame that none matches is counted, a
CAN FD frame on a CLASSIC bus is an error and no frame, a remote frame is counted and not stored. -/
def Sys2Proof.Stated.CanReception : Prop :=
  ∀ (s : State) (m : Fin 4) (f : CanFrame) (at_ cyc : Nat), busMode s m ≠ 0 → beyondEdge s at_ = false →
    let fits := f.idw.getLsbD 30 = false ∨ rn s (K.BUSk_MODE m) = 1
    let r : RxFrame := ⟨max s.now at_, f⟩
    (f.idw.getLsbD 30 = true → rw s (K.BUSk_MODE m) = 0 →
      ∃ t, exec (.canFrameReceive m f at_ cyc) s = .next t ∧ rw t (K.BUSk_ERR_CNT m) = satInc (rw s (K.BUSk_ERR_CNT m)) ∧
        rw t (K.BUSk_RX_CNT m) = rw s (K.BUSk_RX_CNT m) ∧ t.bus[m].rxb = s.bus[m].rxb ∧ t.bus[m].fifo = s.bus[m].fifo ∧ t.mem = s.mem) ∧
    (∀ i, fits → busFilter s m f.idw = some i → (field (rw s (K.BUSk_FDEST m i)) 7 6).toNat = 1 → (field (rw s (K.BUSk_FDEST m i)) 4 0).toNat < s.bus[m].rxb.length →
      ∃ t, exec (.canFrameReceive m f at_ cyc) s = .next t ∧
        t.bus[m].rxb[(field (rw s (K.BUSk_FDEST m i)) 4 0).toNat]?.bind RxBuf.fr = some r ∧ t.bus[m].fifo = s.bus[m].fifo ∧
        rw t (K.BUSk_RX_CNT m) = satInc (rw s (K.BUSk_RX_CNT m)) ∧ t.mem = s.mem) ∧
    (∀ i, fits → busFilter s m f.idw = some i → (field (rw s (K.BUSk_FDEST m i)) 7 6).toNat = 2 →
      ∃ t, exec (.canFrameReceive m f at_ cyc) s = .next t ∧ t.bus[m].rxb = s.bus[m].rxb ∧ rw t (K.BUSk_RX_CNT m) = satInc (rw s (K.BUSk_RX_CNT m)) ∧
        (if s.bus[m].fifo.length < 16 then t.bus[m].fifo = s.bus[m].fifo ++ [r] ∧ t.bus[m].fifoLost = s.bus[m].fifoLost
         else t.bus[m].fifo = s.bus[m].fifo ∧ t.bus[m].fifoLost = s.bus[m].fifoLost + 1 ∧
           rw t (K.BUSk_FIFO_OVR_CNT m) = satInc (rw s (K.BUSk_FIFO_OVR_CNT m)))) ∧
    (fits → busFilter s m f.idw = none → Machine.rb s (K.BUSk_NOMATCH m) 0 = false →
      ∃ t, exec (.canFrameReceive m f at_ cyc) s = .next t ∧ rw t (K.BUSk_NOMATCH_CNT m) = satInc (rw s (K.BUSk_NOMATCH_CNT m)) ∧
        t.bus[m].fifo = s.bus[m].fifo ∧ t.bus[m].rxb = s.bus[m].rxb ∧ t.mem = s.mem) ∧
    ∃ t, exec (.rtrReceive m at_) s = .next t ∧ rw t (K.BUSk_RTR_CNT m) = satInc (rw s (K.BUSk_RTR_CNT m)) ∧ t.bus = s.bus ∧ t.mem = s.mem

/-- CAN_FRAME_SENT and ARBITRATION_LOST (R425): a frame that was sent leaves on the bus, is counted, sets its TXDONE bit and is no longer entered; of
frames with one identifier that are not begun it is the one of the lowest buffer; one that lost arbitration stays entered and is counted. -/
def Sys2Proof.Stated.CanTransmission : Prop :=
  ∀ (s : State) (m : Fin 4) (i : Fin 16) (at_ : Nat) (x : TxFrame), busFirst s.bus[m].entered i = some x →
    (x.begun = false → ∀ y ∈ s.bus[m].entered, y.begun = false → sameId y x = true → x.buf ≤ y.buf) ∧
    (beyondEdge s at_ = false → ∃ t w e d, exec (.canFrameSent m i at_) s = .next t ∧ t.out = .bus m.val (max s.now at_) w e d :: s.out ∧
      t.bus[m].txdone.testBit x.buf = true ∧ t.bus[m].entered = s.bus[m].entered.erase x ∧
      rw t (K.BUSk_TX_CNT m) = satInc (rw s (K.BUSk_TX_CNT m)) ∧ (∀ q : Fin 4, q ≠ m → t.bus[q] = s.bus[q]) ∧ t.mem = s.mem) ∧
    ∃ t, exec (.arbitrationLost m i at_) s = .next t ∧ t.bus = s.bus ∧ rw t (K.BUSk_ARBLOST_CNT m) = satInc (rw s (K.BUSk_ARBLOST_CNT m)) ∧ t.mem = s.mem

/-- CAN frames received and sent (R414, R417 to R419, R425). -/
def Obligations.CanFrames : Prop := Stated.CanReception ∧ Stated.CanTransmission

/-- Bus errors (R428): the counters take their values; above 255 the controller is bus-off, after BOFF_WAIT edges its recovery begins, and at its end
it is error active with both counters 0. -/
def Sys2Proof.Stated.BusOffAndRecovery : Prop :=
  ∀ (s : State) (m : Fin 4) (tec rec at_ : Nat), beyondEdge s at_ = false →
    (busMode s m = 2 → tec ≤ 255 → ∃ t, exec (.busError m tec rec at_) s = .next t ∧ t.bus[m].tec = tec ∧ t.bus[m].rerr = rec ∧ t.bus[m].off = 0 ∧
      rw t (K.BUSk_ERR_CNT m) = satInc (rw s (K.BUSk_ERR_CNT m)) ∧ t.mem = s.mem) ∧
    (busMode s m = 2 → 255 < tec → rn s (K.BUSk_BOFF_LIM m) = 0 →
      ∃ t, exec (.busError m tec rec at_) s = .next t ∧ t.bus[m].off = 1 ∧ t.bus[m].offTicks = 0 ∧ t.bus[m].recov = false ∧ t.bus[m].entered = [] ∧
        t.bus[m].row = s.bus[m].row + 1 ∧ rw t (K.BUSk_BOFF_CNT m) = satInc (rw s (K.BUSk_BOFF_CNT m))) ∧
    (s.bus[m].off = 1 → rn s (K.BUSk_BOFF_WAIT m) ≤ s.bus[m].offTicks → ∃ t, exec (.busOffWaitEnd m) s = .next t ∧ t.bus[m].recov = true ∧
      t.bus[m].off = 1 ∧ (∀ q : Fin 4, q ≠ m → t.bus[q] = s.bus[q]) ∧ t.par = s.par) ∧
    (s.bus[m].off = 1 → s.bus[m].recov = true → s.evr.queue.length < 64 →
      ∃ t o, exec (.busOffRecovered m at_) s = .next t ∧ t.bus[m].off = 0 ∧ t.bus[m].tec = 0 ∧ t.bus[m].rerr = 0 ∧
        t.evr.queue = s.evr.queue ++ [o] ∧ o.code = 0x7002)

/-- WINDOW_START (R424, R425): the next used window of the basic cycle begins at its offset; what was not begun is withdrawn, and a frame of the
window's cell that may be sent is entered. -/
def Sys2Proof.Stated.WindowBegins : Prop :=
  ∀ (s : State) (m : Fin 4) (begun : Option (Fin 16)) (w : Nat), busMode s m = 2 → nextWindow s m s.bus[m].nextWin = some w →
    ∃ t, exec (.windowStart m begun) s = .next t ∧ t.bus[m].nextWin = w + 1 ∧
      t.tick.now = max s.now (s.bus[m].cycStart + 100 * rn s (K.BUSk_WOFS m w)) ∧
      (∀ b, busCell s m s.bus[m].cycNo w < 16 → s.bus[m].cur[busCell s m s.bus[m].cycNo w]? = some b →
        busMaySched s m (busCell s m s.bus[m].cycNo w) = true → (field (rw s (K.BUSk_TXMODE m (busCell s m s.bus[m].cycNo w))) 1 0).toNat = 1 →
        txInhibit b = false → txUnsendable s m b = false → begun = none →
        t.bus[m].entered = [{ buf := busCell s m s.bus[m].cycNo w, win := some w, cycle := s.bus[m].cycNo, bytes := b, begun := false }]) ∧ t.mem = s.mem

/-- BUS ENABLE (R430): a controller whose configuration fails is refused with event 16#7009 and a rejected write; else it starts afresh; a disabled
one leaves its bus. -/
def Sys2Proof.Stated.BusEnable : Prop :=
  ∀ (s : State) (m : Fin 4), ParWf s →
    (Machine.rb s (K.BUSk_ENABLE m) 0 = false → busCfgFail s m = 0 →
      ∃ t, exec (.busEnableWrite m true) s = .next t ∧ Machine.rb t (K.BUSk_ENABLE m) 0 = true ∧ t.bus[m] = BusSt.fresh ∧
        (∀ q : Fin 4, q ≠ m → t.bus[q] = s.bus[q]) ∧ t.mem = s.mem) ∧
    (Machine.rb s (K.BUSk_ENABLE m) 0 = false → busCfgFail s m ≠ 0 → s.evr.queue.length < 64 →
      ∃ t o r, exec (.busEnableWrite m true) s = .next t ∧ Machine.rb t (K.BUSk_ENABLE m) 0 = false ∧ t.bus = s.bus ∧
        t.evr.queue = s.evr.queue ++ o :: r ∧ o.code = 0x7009 ∧ rw t 0x900000F = satInc (rw s 0x900000F)) ∧
    ∃ t, exec (.busEnableWrite m false) s = .next t ∧ Machine.rb t (K.BUSk_ENABLE m) 0 = false ∧ t.bus[m].off = 0 ∧ t.bus[m].tec = 0 ∧ t.bus[m].entered = []

/-- CAN controllers: errors, windows, ENABLE (R424, R425, R428, R430). -/
def Obligations.CanControllers : Prop := Stated.BusOffAndRecovery ∧ Stated.WindowBegins ∧ Stated.BusEnable

/-- The inputs (R435 to R439): a raw level is noted with its instant, the filtered state follows at the sample that brings the counter to its bound,
a wire break of a monitored input is counted, and its end clears it. -/
def Sys2Proof.Stated.DigitalInputs : Prop :=
  ∀ (s : State) (i : Fin 32) (j : Fin 24) (v : Bool) (at_ cyc : Nat), beyondEdge s at_ = false →
    (∃ t, exec (.rawLevelChange i v at_) s = .next t ∧ t.tick.now = max s.now at_ ∧ t.dio.di[i].raw = v ∧
      (s.dio.di[i].raw ≠ v → t.dio.di[i].stamp = max s.now at_) ∧ (s.dio.di[i].raw = v → t.dio.di[i].stamp = s.dio.di[i].stamp) ∧
      (∀ q : Fin 32, q ≠ i → t.dio.di[q].raw = s.dio.di[q].raw ∧ t.dio.di[q].stamp = s.dio.di[q].stamp) ∧ t.dio.do_ = s.dio.do_) ∧
    (beyondEdge s (diDue s i) = false → s.dio.on = true → s.dio.di[i].init = false → s.dio.di[i].f ≠ s.dio.di[i].raw → s.dio.cos.length ≤ 56 →
      ∃ t, exec (.diFilterChange i cyc) s = .next t ∧ t.tick.now = max s.now (diDue s i) ∧ t.dio.di[i].f = s.dio.di[i].raw ∧ t.dio.do_ = s.dio.do_ ∧
        (24 ≤ i.val → Machine.rb s K.DIO_COS_EN i = true → ∃ r ∈ t.dio.cos, r.at_ = diDue s i ∧ r.ts = s.dio.di[i].stamp ∧ r.ch = i.val ∧ r.level = s.dio.di[i].raw)) ∧
    let k : Fin 32 := ⟨j.val, by omega⟩
    (s.dio.on = true → Machine.rb s K.DIO_WB_EN j = true → s.dio.di[k].brk = false →
      ∃ t, exec (.wireBreak j at_) s = .next t ∧ t.dio.di[k].brk = true ∧ rw t K.DIO_BREAK_CNT = satInc (rw s K.DIO_BREAK_CNT) ∧
        Machine.rb t K.DIO_STATUS 4 = true ∧ (∀ q : Fin 32, q ≠ k → t.dio.di[q] = s.dio.di[q]) ∧ t.dio.do_ = s.dio.do_ ∧ t.mem = s.mem) ∧
    (s.dio.on = true → s.dio.di[k].brk = true → ∃ t, exec (.wireBreakClear j at_) s = .next t ∧ t.dio.di[k].brk = false ∧
      (∀ q : Fin 32, q ≠ k → t.dio.di[q] = s.dio.di[q]) ∧ t.dio.do_ = s.dio.do_ ∧ t.mem = s.mem)

/-- The outputs (R443, R446, R447, R449): an overload switches every member of the set off and starts a wait of RETRY_MS, or latches the set where
RETRY_LIM tries have failed; a wait that ends makes the set ready for a try, a try that holds clears the overload; open load. -/
def Sys2Proof.Stated.DigitalOutputs : Prop :=
  ∀ (s : State) (i : Fin 32) (at_ : Nat), beyondEdge s at_ = false →
    let l := leader s i
    let d := s.dio.do_[l]
    let ms := 100000 * rn s K.DIO_RETRY_MS
    let lim := rn s K.DIO_RETRY_LIM
    (dioOn s = true → s.dio.do_[i].rel = true → groupOn s i = true →
      ∃ t, exec (.outputOverload i at_) s = .next t ∧ t.tick.now = max s.now at_ ∧ rw t K.DIO_OVL_CNT = satInc (rw s K.DIO_OVL_CNT) ∧
        t.dio.do_[l].ovl = true ∧ (∀ q : Fin 32, leader s q = l → t.dio.do_[q].rel = false) ∧
        (∀ q : Fin 32, leader s q ≠ l → t.dio.do_[q] = s.dio.do_[q]) ∧ t.dio.di = s.dio.di ∧ t.mem = s.mem ∧
        (if d.retry = 3 ∧ lim ≠ 0 ∧ lim ≤ d.fails + 1 then t.dio.do_[l].latched = true ∧ t.dio.do_[l].retry = 0
         else t.dio.do_[l].latched = d.latched ∧ t.dio.do_[l].retry = 1 ∧ t.dio.do_[l].until_ = max s.now at_ + ms)) ∧
    (s.dio.do_[i].retry = 1 → s.dio.do_[i].left = none → dioOn s = true →
      ∃ t, exec (.retryWaitEnd i) s = .next t ∧ t.tick.now = max s.now s.dio.do_[i].until_ ∧ t.dio.do_[i] = { s.dio.do_[i] with retry := 2 } ∧
        (∀ q : Fin 32, q ≠ i → t.dio.do_[q] = s.dio.do_[q]) ∧ t.par = s.par ∧ t.mem = s.mem) ∧
    (s.dio.do_[i].retry = 3 →
      ∃ t, exec (.retryHoldEnd i) s = .next t ∧ t.tick.now = max s.now s.dio.do_[i].until_ ∧
        t.dio.do_[i] = { s.dio.do_[i] with retry := 0, ovl := false, fails := 0 } ∧
        (∀ q : Fin 32, q ≠ i → t.dio.do_[q] = s.dio.do_[q]) ∧ t.par = s.par ∧ t.mem = s.mem) ∧
    (dioOn s = true → Machine.rb s K.DIO_OL_EN i = true → s.dio.do_[i].rel = true → groupOn s i = true → d.openLd = false →
      ∃ t, exec (.openLoad i at_) s = .next t ∧ t.dio.do_[l] = { d with openLd := true } ∧ Machine.rb t K.DIO_STATUS 3 = true ∧
        (∀ q : Fin 32, q ≠ l → t.dio.do_[q] = s.dio.do_[q]) ∧ t.mem = s.mem) ∧
    ∃ t, exec (.openLoadClear i at_) s = .next t ∧ t.dio.do_[l] = { d with openLd := false } ∧
      (∀ q : Fin 32, q ≠ l → t.dio.do_[q] = s.dio.do_[q]) ∧ t.par = s.par ∧ t.mem = s.mem

/-- The digital inputs and outputs (R435 to R439, R443, R446, R447, R449). -/
def Obligations.DigitalInputsAndOutputs : Prop := Stated.DigitalInputs ∧ Stated.DigitalOutputs

/-- ENABLE of the digital I/O and of the panel driver (R434, R451, R468): the filters start with their next sample; a panel whose configuration fails is
refused with event 16#9004; a driver that is disabled outside a line write discharges its rails. -/
def Sys2Proof.Stated.DioAndPanelEnable : Prop :=
  ∀ s : State, ParWf s →
    (dioOn s = false → ∃ t, exec (.dioEnableWrite true) s = .next t ∧ dioOn t = true ∧ t.dio.on = true ∧
      (∀ q : Fin 32, t.dio.di[q].init = true ∧ t.dio.di[q].brk = s.dio.di[q].brk) ∧ t.dio.do_ = s.dio.do_) ∧
    (∃ t, exec (.dioEnableWrite false) s = .next t ∧ dioOn t = false ∧ t.dio = s.dio ∧ t.mem = s.mem) ∧
    (Machine.rb s K.PANEL_ENABLE 0 = false → panelCfgFail s = 0 →
      ∃ t, exec (.panelEnableWrite true) s = .next t ∧ Machine.rb t K.PANEL_ENABLE 0 = true ∧ t.panel.fault = false ∧ t.panel.rails = s.panel.rails ∧
        t.ret = s.ret ∧ t.mem = s.mem) ∧
    (Machine.rb s K.PANEL_ENABLE 0 = false → panelCfgFail s ≠ 0 → s.evr.queue.length < 64 →
      ∃ t o r, exec (.panelEnableWrite true) s = .next t ∧ Machine.rb t K.PANEL_ENABLE 0 = false ∧ t.panel = s.panel ∧
        t.evr.queue = s.evr.queue ++ o :: r ∧ o.code = 0x9004 ∧ rw t 0xB00000F = satInc (rw s 0xB00000F)) ∧
    (Machine.rb s K.PANEL_ENABLE 0 = true →
      ∃ t, exec (.panelEnableWrite false) s = .next t ∧ Machine.rb t K.PANEL_ENABLE 0 = false ∧ t.ret = s.ret ∧ t.panel.lineAt = s.panel.lineAt ∧
        (s.panel.lineAt = none → t.panel.rails = if s.panel.rails = 0 then 0 else 3))

/-- LINE_WRITE_END (R457, R463): the line is counted when its time is over, and the region goes on with its next line or has been written whole: its
DONE takes the value of the request. -/
def Sys2Proof.Stated.PanelLines : Prop :=
  ∀ (s : State) (a r : Nat) (l : Nat × Nat), s.panel.lineAt = some a → (panelJ s).runR = some r → (regLines s r)[(panelJ s).line]? = some l →
    ∃ t, exec .lineWriteEnd s = .next t ∧ t.tick.now = max s.now (a + lineTime s l.1) ∧ rw t K.PANEL_LINES_CNT = satInc (rw s K.PANEL_LINES_CNT) ∧
      t.mem = s.mem ∧ t.cores = s.cores ∧ (panelJ t).queue = (panelJ s).queue ∧ (panelJ t).intended = (panelJ s).intended ∧
      if (panelJ s).line + 1 < (regLines s r).length then (panelJ t).runR = some r ∧ (panelJ t).line = (panelJ s).line + 1 ∧ (panelJ t).done = (panelJ s).done
      else (panelJ t).runR = none ∧ ((panelJ s).intr = false → (panelJ t).done = (panelJ s).done.set r (panelJ s).runReq)

/-- The rails (R456, R459, R466) and the blink phases (R464): the rails come up, a fault interrupts the region and discharges them, idle rails discharge,
a discharge ends; a phase change requests its region. -/
def Sys2Proof.Stated.PanelRailsAndBlinking : Prop :=
  ∀ (s : State) (mvs : List Int) (mv : Int) (rail : Fin 4) (at_ : Nat) (r : Fin 16),
    (s.panel.rails = 1 → ∃ t, exec (.railsReady mvs at_) s = .next t ∧ t.panel.rails = (if panelWorks s = true then 2 else 3) ∧ t.mem = s.mem) ∧
    (s.panel.rails = 2 → ∃ t, exec (.railFault rail mv at_) s = .next t ∧ t.panel.rails = 3 ∧ t.panel.fault = true ∧ t.panel.lineAt = none ∧
      rw t K.PANEL_RAILFLT_CNT = satInc (rw s K.PANEL_RAILFLT_CNT) ∧ Machine.rb t K.PANEL_STATUS 1 = true ∧ (panelJ t).runR = (panelJ s).runR ∧
      ((panelJ s).runR ≠ none → (panelJ t).intr = true) ∧ t.mem = s.mem) ∧
    (s.panel.rails = 2 → s.panel.lineAt = none → (panelJ s).runR = none → rn s K.PANEL_RAIL_IDLE ≠ 0 →
      ∃ t, exec .railIdleExpiry s = .next t ∧ t.panel.rails = 3 ∧ t.tick.now = max s.now (s.panel.idleTs + 100000 * rn s K.PANEL_RAIL_IDLE) ∧
        t.par = s.par ∧ t.ret = s.ret ∧ t.mem = s.mem) ∧
    (s.panel.rails = 3 → ∃ t, exec (.railDischargeEnd mvs at_) s = .next t ∧
      t.panel.rails = (if s.panel.wantStart = true ∧ panelWorks s = true then 1 else 0) ∧ t.ret = s.ret ∧ t.mem = s.mem) ∧
    ∀ b, s.panel.blink.find? (fun x => decide (x.1 = r.val)) = some b →
      ∃ t, exec (.blinkPhase r) s = .next t ∧ t.tick.now = max s.now b.2 ∧ t.mem = s.mem ∧
        (panelWorks s = true → (panelJ t).phases = (panelJ s).phases ^^^ 2 ^ r.val ∧ (regOn s r = true → r.val ∈ (panelJ t).queue)) ∧
        (panelWorks s = false → t.ret = s.ret)

/-- The panel driver and the two ENABLE words (R434, R451, R456, R457, R459, R463, R464, R466, R468). -/
def Obligations.PanelDriver : Prop := Stated.DioAndPanelEnable ∧ Stated.PanelLines ∧ Stated.PanelRailsAndBlinking

/-- A date and time of the calendar (R471, R472). -/
def Sys2Proof.Stated.CalendarCounts : Prop :=
  ∀ (s : State) (at_ cyc : Nat),
    let c := s.rtc.t
    c.sec < 60 → c.min_ < 60 → c.hour < 24 → 1 ≤ c.month → c.month ≤ 12 → 1 ≤ c.day → c.day ≤ monthDays c.year c.month → 2000 ≤ c.year → c.year ≤ 2399 →
      ∃ t, exec (.calendarSecond at_ cyc) s = .next t ∧ t.tick.now = max s.now at_ ∧ t.rtc.secTs = max s.now at_ ∧ t.rtc.t.sub = 0 ∧
        t.rtc.t.sec < 60 ∧ t.rtc.t.min_ < 60 ∧ t.rtc.t.hour < 24 ∧ 1 ≤ t.rtc.t.day ∧ t.rtc.t.day ≤ monthDays t.rtc.t.year t.rtc.t.month ∧
        t.rtc.wday = (if t.rtc.t.hour = 0 ∧ t.rtc.t.min_ = 0 ∧ t.rtc.t.sec = 0 then (s.rtc.wday + 1) % 7 else s.rtc.wday) ∧
        (if c.year = 2399 ∧ c.month = 12 ∧ c.day = 31 ∧ c.hour = 23 ∧ c.min_ = 59 ∧ c.sec = 59
         then t.rtc.t = Civil.first ∧ Machine.rb t K.RTC_STATUS 1 = true
         else t.rtc.t.seconds = c.seconds + 1)

/-- SET_CMD (R476, R477): 1 sets the calendar whole, with the weekday of the date, or, where a field is out of its range, changes nothing of
it and counts the rejection; another value does nothing. -/
def Sys2Proof.Stated.SetCommandWholeOrNot : Prop :=
  ∀ (s : State) (v : Word) (sub at_ cyc : Nat),
    let b := setTime s
    let ok := b.sub ≤ 1023 ∧ b.sec ≤ 59 ∧ b.min_ ≤ 59 ∧ b.hour ≤ 23 ∧ 1 ≤ b.month ∧ b.month ≤ 12 ∧ 2000 ≤ b.year ∧ b.year ≤ 2399 ∧ 1 ≤ b.day ∧
      b.day ≤ monthDays b.year b.month
    (v = 1 → ok → ∃ t, exec (.setCmd v sub at_ cyc) s = .next t ∧ t.rtc.t = b ∧ t.rtc.wday = weekday (dayNumber b.year b.month b.day) ∧
      rw t K.RTC_SET_CNT = satInc (rw s K.RTC_SET_CNT) ∧ t.ret = s.ret ∧ t.mode = s.mode) ∧
    (v = 1 → ¬ok → ∃ t, exec (.setCmd v sub at_ cyc) s = .next t ∧ t.rtc = s.rtc ∧ rw t K.RTC_WREJ_CNT = satInc (rw s K.RTC_WREJ_CNT) ∧
      Machine.rb t K.RTC_STATUS 0 = true ∧ t.mem = s.mem ∧ t.cores = s.cores) ∧
    (v ≠ 1 → exec (.setCmd v sub at_ cyc) s = .next (setNow s at_))

/-- The time fields of a session (R475): its first read freezes them, a read within 1 ms answers from the frozen copy, YEAR and the end of the
1 ms release it. -/
def Sys2Proof.Stated.TimeShadow : Prop :=
  ∀ (s : State) (slot : Fin 8) (w : Fin 10) (sub at_ : Nat),
    (s.rtc.shadow[slot] = none →
      ∃ t, exec (.rtcTimeRead slot w sub at_) s = .next t ∧
        t.out = .value slot.val (K.RTC_SEC_TS_LO + w.val) ((timeFields s sub).getD w 0) :: s.out ∧
        t.rtc.shadow[slot] = (if w.val = 9 then none else some (max s.now at_, timeFields s sub)) ∧
        t.rtc.t = s.rtc.t ∧ t.par = s.par ∧ t.mem = s.mem) ∧
    (∀ f l, s.rtc.shadow[slot] = some (f, l) → max s.now at_ < f + 100000 →
      ∃ t, exec (.rtcTimeRead slot w sub at_) s = .next t ∧ (∃ k, t.out = .value slot.val k (l.getD w 0) :: s.out) ∧
        t.rtc.shadow[slot] = if w.val = 9 then none else some (f, l)) ∧
    ∀ f l, s.rtc.shadow[slot] = some (f, l) →
      ∃ t, exec (.shadowRelease slot) s = .next t ∧ t.tick.now = max s.now (f + 100000) ∧ t.rtc.shadow[slot] = none ∧
        (∀ q : Fin 8, q ≠ slot → t.rtc.shadow[q] = s.rtc.shadow[q]) ∧ t.rtc.t = s.rtc.t ∧ t.par = s.par

/-- The clock's supplies (R482, R484): backup, the return of the rail with its trickle charge and the end of the charge; the calendar keeps its
time through them, and a backup source below 1.60 V resets the whole domain. -/
def Sys2Proof.Stated.ClockSupplies : Prop :=
  ∀ (s : State) (mv at_ : Nat), ParWf s →
    (∃ t, exec (.clockBackupSwitch mv at_) s = .next t ∧ t.rtc.backup = true ∧ t.rtc.t = s.rtc.t ∧ rn t K.RTC_CHARGE = 0) ∧
    (s.rtc.backup = true → ∃ t, exec (.clockRailReturn mv at_) s = .next t ∧ t.rtc.backup = false ∧ t.rtc.t = s.rtc.t ∧ rn t K.RTC_CHARGE = 1) ∧
    (Machine.rb s K.RTC_CHARGE 0 = true → ∃ t, exec (.trickleChargeEnd mv at_) s = .next t ∧ rn t K.RTC_CHARGE = 0 ∧ t.rtc = s.rtc ∧
      rn t K.RTC_SCAP_MV = mv % 2 ^ 32) ∧
    (s.rtc.backup = true → ∃ t, exec .clockDomainReset s = .next t ∧ t.rtc.t = Civil.first ∧ t.rtc.wday = 5 ∧ (∀ q : Fin 8, t.rtc.shadow[q] = none) ∧
      (∀ k, k / 65536 = 0xC00 → kvGet t.par k = none) ∧ (∀ k, k / 65536 ≠ 0xC00 → rw t k = rw s k) ∧ t.tick = s.tick)

/-- The clock: the calendar, its supplies, its setting, its reads (R471, R472, R475 to R477, R482, R484). -/
def Obligations.ClockAndCalendar : Prop := Stated.CalendarCounts ∧ Stated.ClockSupplies ∧ Stated.SetCommandWholeOrNot ∧ Stated.TimeShadow

/-- EVENT_RECORD_WRITE (R512, R513): an occurrence outside bursts leaves the queue and stands in the ring with the next SEQ, its type, its length,
its timestamp and its payload. -/
def Sys2Proof.Stated.RecordWritten : Prop :=
  ∀ (s : State) (o : Occ) (rest : List Occ), s.evr.scanning = false → s.mode ≠ .off → s.evr.queue = o :: rest → o.burst = false →
    o.pay.length ≤ 64 → s.evr.next + recSize o.pay.length ≤ ringSize → cellsWf 0 s.evr.ring = true →
    ∃ t, exec .eventRecordWrite s = .next t ∧ t.evr.queue = rest ∧ t.evr.next = s.evr.next + recSize o.pay.length ∧
      t.evr.seq = (if s.evr.seq = 0xFFFFFFFF then 1 else s.evr.seq + 1) ∧ t.evr.gap = false ∧
      cellBytes 0 t.evr.ring s.evr.next 4 = leBytes 4 t.evr.seq ∧ cellBytes 0 t.evr.ring (s.evr.next + 4) 2 = leBytes 2 o.code ∧
      cellBytes 0 t.evr.ring (s.evr.next + 6) 1 = leBytes 1 o.pay.length ∧ cellBytes 0 t.evr.ring (s.evr.next + 8) 8 = leBytes 8 o.ts ∧
      cellBytes 0 t.evr.ring (s.evr.next + 24) o.pay.length = o.pay ∧ t.mem = s.mem ∧ t.cores = s.cores ∧ t.ret = s.ret

/-- Bursts (R515): an occurrence that matches an open burst writes no record, and the burst whose time ends first closes at that instant. -/
def Sys2Proof.Stated.BurstsRepeatAndClose : Prop :=
  ∀ s : State,
    (∀ o rest b, s.evr.scanning = false → s.mode ≠ .off → s.evr.queue = o :: rest → o.burst = true → burstOf s o = some b →
      cellsWf 0 s.evr.ring = true → leNat (cellBytes 0 s.evr.ring (b.ofs + 16) 4) < 0xFFFFFFFF →
      ∃ t, exec .eventRecordWrite s = .next t ∧ t.evr.queue = rest ∧ t.evr.seq = s.evr.seq ∧ t.evr.next = s.evr.next ∧ t.evr.recs = s.evr.recs ∧
        leNat (cellBytes 0 t.evr.ring (b.ofs + 16) 4) = leNat (cellBytes 0 s.evr.ring (b.ofs + 16) 4) + 1 ∧
        ∀ a, a < b.ofs + 16 ∨ b.ofs + 20 ≤ a → cellGet 0 t.evr.ring a = cellGet 0 s.evr.ring a) ∧
    ∀ b, b ∈ s.evr.bursts → (∀ x ∈ s.evr.bursts, x.ofs ≠ b.ofs → burstEnd s b < burstEnd s x) → s.evr.bursts.Nodup →
      (∀ x ∈ s.evr.bursts, x.ofs = b.ofs → x = b) →
      ∃ t, exec .burstClose s = .next t ∧ t.tick.now = max s.now (burstEnd s b) ∧ b ∉ t.evr.bursts ∧ (∀ x ∈ s.evr.bursts, x ≠ b → x ∈ t.evr.bursts) ∧
        t.evr.ring = s.evr.ring ∧ t.evr.recs = s.evr.recs

/-- The reads and the clear of the ring (R516, R517, R520): the scan takes the newest valid record's number and place, a window word shows four
bytes at the session's cursor, a clear discards every record and queues event 16#0009. -/
def Sys2Proof.Stated.RingScanWindowClear : Prop :=
  ∀ (s : State) (slot : Fin 8) (i : Fin 64),
    (s.evr.scanning = true → s.start.kind ≠ 1 →
      ∃ t, exec .ringScan s = .next t ∧ t.evr.scanning = false ∧ t.evr.recs = s.evr.recs.filter (recValid s) ∧ t.evr.ring = s.evr.ring ∧
        match (s.evr.recs.filter (recValid s)).getLast? with
        | some r => t.evr.seq = r.seq ∧ t.evr.next = r.ofs + (24 + r.len + 7) / 8 * 8
        | none => t.evr.seq = s.evr.seq ∧ t.evr.next = s.evr.next) ∧
    (s.evr.queue.length < 64 →
      ∃ t, exec (.evrClear slot) s = .next t ∧ t.evr.recs = [] ∧ t.evr.bursts = [] ∧ t.evr.seq = s.evr.seq ∧
        (∃ o, t.evr.queue = s.evr.queue ++ [o] ∧ o.code = 9 ∧ o.pay = leBytes 4 slot.val ++ leBytes 4 s.evr.recs.length) ∧ t.mem = s.mem) ∧
    ∃ t k, exec (.evrWindowRead slot i) s = .next t ∧
      t.out = .value slot.val k (BitVec.ofNat 32 (leNat ((List.range 4).map fun n => cellGet 0 s.evr.ring ((s.evr.cur[slot] + 4 * i.val + n) % 262144)))) :: s.out ∧
      t = { s with out := t.out }

/-- The event recorder: records, bursts, scan, window, clear (R512, R513, R515 to R517, R520). -/
def Obligations.EventRecorder : Prop := Stated.RecordWritten ∧ Stated.BurstsRepeatAndClose ∧ Stated.RingScanWindowClear

/-- FAULT_RESTART and WATCHDOG_EXPIRY (R240, R490, R495, R497): the module stops its cores and its edges and enters RESET, where its start path waits;
without a restart due, in a power-fail sequence, and before the count can have reached W_CLOSE, nothing happens. -/
def Sys2Proof.Stated.RestartEntersReset : Prop :=
  ∀ (s : State) (busy : BusBusy) (at_ : Nat),
    let down := fun (i : Instr) => ∃ t, exec i s = .next t ∧ t.mode = .reset ∧ t.tick.seqOn = false ∧ t.tick.phase = .none ∧ t.start.step = .reset ∧
      t.wdg.running = false ∧ t.wdg.restartDue = false ∧ t.power.pf = none ∧ t.power.dorm = none ∧ ∀ c : CoreId, t.cores[c].st = .idle
    (s.wdg.restartDue = true → s.power.pf = none → down (.faultRestart busy)) ∧
    (s.wdg.restartDue = false ∨ s.power.pf ≠ none → exec (.faultRestart busy) s = .next s) ∧
    (s.wdg.running = true → 10000 * rn s K.WDG_W_CLOSE ≤ 105 * (max s.now at_ - s.wdg.base) → down (.watchdogExpiry busy at_)) ∧
    (s.wdg.running = false ∨ 105 * (max s.now at_ - s.wdg.base) < 10000 * rn s K.WDG_W_CLOSE →
      exec (.watchdogExpiry busy at_) s = .next (setNow s at_))

/-- CEDAR_WATCHDOG_SERVICE (R490, R491, R493): a service whose count lies in the window restarts the count and puts the next window in use; a count
below W_OPEN is an early service and ends in RESET. -/
def Sys2Proof.Stated.CedarServiceWindow : Prop :=
  ∀ (s : State) (n at_ : Nat), ParWf s → s.mode = .cedar → s.start.step ≠ .ready → s.wdg.running = true →
    (rn s K.WDG_W_OPEN ≤ n → n < rn s K.WDG_W_CLOSE → n < 2 ^ 32 →
      ∃ t, exec (.cedarWatchdogService n at_) s = .next t ∧ t.wdg.base = max s.now at_ ∧ t.wdg.running = true ∧ rn t K.WDG_T_LAST = n ∧
        rn t K.WDG_W_OPEN = s.wdg.nextOpen % 2 ^ 32 ∧ rn t K.WDG_W_CLOSE = s.wdg.nextClose % 2 ^ 32 ∧ t.mode = .cedar ∧ t.cores = s.cores ∧ t.mem = s.mem) ∧
    (n < rn s K.WDG_W_OPEN → ∃ t, exec (.cedarWatchdogService n at_) s = .next t ∧ t.mode = .reset ∧ t.wdg.running = false)

/-- Restarts and the watchdog (R490, R491, R493, R495, R497). -/
def Obligations.RestartsAndWatchdog : Prop := Stated.RestartEntersReset ∧ Stated.CedarServiceWindow

/-- COMMIT_SEALED (R195): the newest record is sealed with its HCRC, and nothing of memory, home image or journals changes. -/
def Sys2Proof.Stated.CommitSealed : Prop :=
  ∀ (s : State) (r : Rec) (at_ : Nat), openRec s = some r → r.st = .open_ → s.mode ≠ .off →
    ∃ t, exec (.commitSealed at_) s = .next t ∧ t.tick.now = max s.now at_ ∧ t.ret.dir = s.ret.dir.dropLast ++ [{ r with st := .sealed, hcrc := r.crc }] ∧
      openRec t = some { r with st := .sealed, hcrc := r.crc } ∧ Rec.valid { r with st := .sealed, hcrc := r.crc } = true ∧ t.ret.home = s.ret.home ∧ t.ret.j = s.ret.j ∧ t.ret.jd = s.ret.jd ∧ t.ret.durTick = s.ret.durTick ∧ t.mem = s.mem

/-- Heartbeats and lane states (R363, R366, R374, R377): an intact heartbeat keeps its lane UP and is the partner's latest, a damaged one is counted; symbol
lock makes a dark lane SILENT; a lane without it is NOSIG, and an ACTIVE module both of whose lanes are dark goes on alone. -/
def Obligations.PairLanes : Prop :=
  ∀ (s : State) (lane : Fin 2) (q : Fin 4) (hb : Hb) (delay at_ : Nat),
    (sReceives s = true → ∃ t, exec (.hbReceive lane true hb delay at_) s = .next t ∧ t.tick.now = max s.now at_ ∧ laneSt t (sLane lane) = 2 ∧
      t.pair.lanes[sLane lane].missed = 0 ∧ t.pair.lanes[sLane lane].delay = delay ∧ t.pair.peer = some hb ∧
      t.pair.peerEpoch = max s.pair.peerEpoch hb.epoch ∧ (∀ l : Fin 4, l ≠ sLane lane → t.pair.lanes[l] = s.pair.lanes[l])) ∧
    (sReceives s = true → ∃ t, exec (.hbReceive lane false hb delay at_) s = .next t ∧ rw t K.PAIR_PKT_ERR_CNT = satInc (rw s K.PAIR_PKT_ERR_CNT) ∧
      t.pair = s.pair ∧ t.mem = s.mem) ∧
    (∃ t, exec (.laneSymbolLock q at_) s = .next t ∧ t.pair.lanes[q].lock = true ∧ laneSt t q = (if laneSt s q = 0 then 1 else laneSt s q) ∧
      (∀ l : Fin 4, l ≠ q → t.pair.lanes[l] = s.pair.lanes[l]) ∧ t.par = s.par ∧ t.mem = s.mem) ∧
    (s.mode ≠ .off → ∃ t, exec (.laneNosig q at_) s = .next t ∧ laneSt t q = 0 ∧ t.pair.lanes[q].lock = false ∧
      (∀ l : Fin 4, l ≠ q → t.pair.lanes[l] = s.pair.lanes[l]) ∧
      (q = 0 → laneSt s q = 2 → rw t K.PAIR_LOSS_A_CNT = satInc (rw s K.PAIR_LOSS_A_CNT)) ∧
      (q = 1 → laneSt s q = 2 → rw t K.PAIR_LOSS_B_CNT = satInc (rw s K.PAIR_LOSS_B_CNT)) ∧
      (q.val < 2 → pairUnitOn s = true → s.role = .active → sOn s = true → (∀ l : Fin 4, l.val < 2 → l ≠ q → laneSt s l = 0) → t.pair.unilateral = true))

/-- The lease and the Pearl (R371, R372, R375 to R377): a lease that expires at the next edge closes the gate and ends the role; a standby whose deadline has
passed with a lane still lit takes the Pearl with a new epoch; before the deadline nothing happens; a RELEASE entitles the standby a period later. -/
def Obligations.LeaseAndPearl : Prop :=
  ∀ (s : State) (busy : BusBusy) (lane : Fin 2) (tick ts at_ : Nat),
    (s.tick.seqOn = true → leaseDue s (nextEdge s) = true →
      ∃ t, exec (.leaseExpiry busy) s = .next t ∧ t.pair.gate = true ∧ t.pair.leaseX = none ∧ t.role = .syncing ∧ t.mode = s.mode ∧
        Machine.rb t K.PAIR_STATUS 5 = true ∧ (∀ i : Fin 32, t.dio.do_[i].rel = false) ∧ t.mem.cells = s.mem.cells) ∧
    (s.tick.seqOn = false ∨ leaseDue s (nextEdge s) = false → exec (.leaseExpiry busy) s = .next s) ∧
    (sReceives s = true → s.mode = .run → s.role = .standby → s.pair.entitled = none → s.pair.gaveUp = false → inQuad s = false → reachable s = false →
      sDark s = false →
      (s.pair.rcvTs + leaseSpan s ≤ max s.now at_ → newEpoch s ≤ 0xFFFFFFFF →
        ∃ t, exec (.leaseDeadline at_) s = .next t ∧ t.ret.x.epoch = newEpoch s ∧ t.tick.takeover = true ∧ t.pair.entitled = some (3, max s.now at_) ∧
          rw t K.PAIR_TAKEOVER_CNT = satInc (rw s K.PAIR_TAKEOVER_CNT) ∧ t.role = .standby ∧ t.mem = s.mem ∧ t.cores = s.cores) ∧
      (max s.now at_ < s.pair.rcvTs + leaseSpan s → exec (.leaseDeadline at_) s = .next (setNow s at_))) ∧
    (sReceives s = true → laneSt s (sLane lane) ≠ 0 → tick < 2 ^ 64 → ts < 2 ^ 64 → s.role = .standby → s.pair.entitled = none → s.pair.gaveUp = false →
      ∃ t, exec (.releaseReceive lane true tick ts at_) s = .next t ∧ t.role = .standby ∧ t.mem = s.mem ∧ t.ret = s.ret ∧
        t.pair.entitled = some (if s.pair.swap.isSome then 5 else 2, max s.now at_ + 100 * periodT s))

/-- The mirror and the resync on the standby (R205, R380 to R383): a line is taken once, a seal over the whole record opens it in the log, a resync line goes to
the memories and the home image; a confirmation ends what waits for it on the ACTIVE module. -/
def Sys2Proof.Stated.MirrorAndResync : Prop :=
  ∀ (s : State) (lane : Fin 2) (index dest tag tick at_ : Nat) (line : List Byte) (sm : SealMsg) (st : RetState), laneSt s (sLane lane) ≠ 0 →
    (takesMirror s = true → line.length = 64 → (∀ e ∈ s.pair.rx, tagSeq e.2.1 = tagSeq tag) →
      (∀ n, lastSeal s = some n → n % 65536 ≠ tagSeq tag) →
      ((∀ e ∈ s.pair.rx, e.1 ≠ index) → ∃ t, exec (.lineReceive lane true index tag line at_) s = .next t ∧
        t.pair = { s.pair with rx := s.pair.rx ++ [(index, tag, line)] } ∧ t.ret = s.ret ∧ t.mem = s.mem) ∧
      ((∃ e ∈ s.pair.rx, e.1 = index) → exec (.lineReceive lane true index tag line at_) s = .next (setNow s at_))) ∧
    (∀ lines, takesMirror s = true → s.role = .standby → s.pair.xpair = false → rxLines s.pair.rx sm.nlines = some lines → lastMirror s < sm.tick →
      sm.first = lastMirror s + 1 → lastSeal s ≠ some sm.tick → openRec s = none →
      ∃ t r, exec (.sealReceive lane true sm st at_) s = .next t ∧ openRec t = some r ∧ r.tick = sm.tick ∧ r.first = sm.first ∧ r.st = .open_ ∧
        r.mirror = true ∧ r.nlines = sm.nlines ∧ r.tags = lines.map (logTag sm.tick) ∧ r.body = some { lines := lines, j := st.j, x := st.x } ∧ t.pair.rx = [] ∧ t.ret.home = s.ret.home ∧ t.mem = s.mem) ∧
    (takesMirror s = true → s.role = .syncing → s.pair.xpair = false → line.length = 64 → dest < 126976 → cellsWf 0 s.mem.cells = true →
      cellsWf 0 s.ret.home = true →
      ∃ t, exec (.syncReceive lane true dest line none at_) s = .next t ∧ readMem t (homePhys dest) 64 = line ∧
        cellBytes 0 t.ret.home (64 * dest) 64 = line ∧ t.pair.syncOn = true ∧
        t.pair.syncPos = (if s.pair.syncOn then s.pair.syncPos else 0) + 1 ∧ t.role = .syncing) ∧
    (sReceives s = true → s.role = .active →
      ∃ t, exec (.confReceive lane true tick at_) s = .next t ∧ t.pair.unconf = s.pair.unconf.filter (fun u => decide (tick < u.1)) ∧ t.mem = s.mem ∧
        t.role = .active)

/-- Swap and exchange on the standby (R386 to R388): CTRL step 1 tells it of the swap, step 2 makes it SYNCING with the new image, its maps and the INCOMPLETE
mark where it may accept the exchange itself; a standby that may not, and one that already exchanges, ignores it. -/
def Sys2Proof.Stated.StandbySwapAndExchange : Prop :=
  ∀ (s : State) (lane : Fin 2) (tick at_ : Nat), takesMirror s = true → laneSt s (sLane lane) ≠ 0 → s.role = .standby →
    (∃ t, exec (.ctrlStepSwap lane true tick at_) s = .next t ∧ t.pair.swap = some tick ∧ rn t K.PAIR_SWAP_STATE = 3 ∧ t.role = .standby ∧ t.ret = s.ret ∧
      t.mem = s.mem) ∧
    (s.pair.xpair = true → exec (.ctrlStepExchange lane true tick at_) s = .next (setNow s at_) ∨ 2 ^ 64 ≤ tick) ∧
    (s.pair.xpair = false → 1 < s.upd.active ∨ exchangeCheck (setNow s at_) 0xFF (1 - s.upd.active) ≠ stOk → tick < 2 ^ 64 →
      exec (.ctrlStepExchange lane true tick at_) s = .next (setNow s at_)) ∧
    (s.pair.xpair = false → s.upd.active ≤ 1 → exchangeCheck (setNow s at_) 0xFF (1 - s.upd.active) = stOk → tick < 2 ^ 64 →
      ∃ t, exec (.ctrlStepExchange lane true tick at_) s = .next t ∧ t.role = .syncing ∧ t.pair.xpair = true ∧ t.exch.st = 1 ∧
        t.exch.slot = 1 - s.upd.active ∧ t.exch.image.isSome = true ∧ t.ret.x.incomplete = true ∧ rn t K.PAIR_SWAP_STATE = 1)

/-- What a STANDBY or SYNCING module takes from the ACTIVE one (R205, R380 to R383, R386 to R388). -/
def Obligations.StandbyFollowsActive : Prop := Stated.MirrorAndResync ∧ Stated.StandbySwapAndExchange

/-- The join's packets (R392, R393, R396, R400, R401): a join heartbeat keeps its lane UP, one that matches is noted while the join forms; segments and the end of
a stream are held, the first intact copy of each. -/
def Obligations.JoinPackets : Prop :=
  ∀ (s : State) (lane : Fin 2) (jhb : Jhb) (delay tick seg len crc at_ : Nat) (data : List Byte),
    (pairUnitOn s = true → jOn s = true →
      ∃ t, exec (.jhbReceive lane true jhb delay at_) s = .next t ∧ laneSt t (jLane lane) = 2 ∧ t.pair.lanes[jLane lane].delay = delay ∧
        t.join.peer = some jhb ∧ (∀ l : Fin 4, l ≠ jLane lane → t.pair.lanes[l] = s.pair.lanes[l]) ∧ t.mem = s.mem ∧
        (s.join.st = 1 → joinMatches s jhb = true → t.join.got = true ∧ t.join.st = 1) ∧
        (s.join.st = 2 → ticking s.mode = true → jhb.progid8 ≠ peerProg s → t.join.st = 3 ∧ t.join.stale = true ∧
          rw t K.PAIR_J_LOSS_CNT = satInc (rw s K.PAIR_J_LOSS_CNT))) ∧
    (jReceives s lane = true → data.length = 1024 → s.join.rxTick = tick % 65536 →
      ((∀ e ∈ s.join.rx, e.1 ≠ seg) → ∃ t, exec (.xsegReceive lane true tick seg data at_) s = .next t ∧
        t.join = { s.join with rx := s.join.rx ++ [(seg, data)] } ∧ t.par = s.par ∧ t.mem = s.mem) ∧
      ((∃ e ∈ s.join.rx, e.1 = seg) → exec (.xsegReceive lane true tick seg data at_) s = .next (setNow s at_))) ∧
    (jReceives s lane = true → data.length = 1024 → s.join.rxTick ≠ tick % 65536 →
      ∃ t, exec (.xsegReceive lane true tick seg data at_) s = .next t ∧
        t.join = { s.join with rxTick := tick % 65536, rx := [(seg, data)], rxEnd := none } ∧ t.mem = s.mem) ∧
    (jReceives s lane = true → s.join.rxTick = tick % 65536 → s.join.rxEnd = none →
      ∃ t, exec (.xendReceive lane true tick len crc at_) s = .next t ∧ t.join = { s.join with rxEnd := some (tick, len, crc) } ∧ t.par = s.par ∧ t.mem = s.mem)

/-- The join's control packets (R404, R405, R408): SAFE and STOP of the partner, its hold for an exchange, the end of its map, its entitlement. -/
def Sys2Proof.Stated.JoinControl : Prop :=
  ∀ (s : State) (lane : Fin 2) (tick at_ : Nat), jReceives s lane = true →
    (s.join.st = 2 → s.mode = .run ∨ s.mode = .held →
      ∃ t, exec (.jctrlSafe lane true at_) s = .next t ∧ t.join = { s.join with safeDue := true } ∧ t.mode = s.mode ∧ t.mem = s.mem) ∧
    (s.join.st = 2 → ∃ t, exec (.jctrlStop lane true at_) s = .next t ∧ t.join.st = 3 ∧ t.join.stale = true ∧ Machine.rb t K.PAIR_J_STATUS 1 = true ∧
      rw t K.PAIR_J_LOSS_CNT = satInc (rw s K.PAIR_J_LOSS_CNT) ∧ (inQuad s = false → s.join.policy = 0 → t.join.safeDue = true) ∧ t.mem = s.mem) ∧
    (s.join.st = 2 → s.upd.active ≤ 1 → s.exch.image = none → exchangeCheck (setNow s at_) 0xFF (1 - s.upd.active) = stOk →
      ∃ t, exec (.jctrlHold lane true tick at_) s = .next t ∧ t.exch.st = 3 ∧ t.exch.slot = 1 - s.upd.active ∧ t.exch.tickN = tick ∧
        t.exch.tickB = s.tick.n ∧ t.exch.loaded = true ∧ t.mode = s.mode ∧ t.mem.bank = s.mem.bank ∧ t.ret.j.exr.isSome = true) ∧
    (s.join.st = 2 → tick < 2 ^ 64 → s.exch.st ≠ 4 →
      ∃ t, exec (.jctrlMapdone lane true tick at_) s = .next t ∧ t.join = { s.join with peerMapDone := true } ∧ t.exch = s.exch ∧ t.mem = s.mem) ∧
    (inQuad s = true → ∃ t, exec (.jctrlEntitled lane true tick at_) s = .next t ∧ t.join = { s.join with peerEnt := some tick } ∧ t.mem = s.mem ∧ t.pair = s.pair)

/-- QUAD_WAIT (R408): a member that has been entitled alone for (LEASE + 2) periods notes it; without its J partner it becomes SYNCING. -/
def Sys2Proof.Stated.QuadWaits : Prop :=
  ∀ (s : State) (e at_ : Nat), inQuad s = true → s.pair.entitled.isSome = true → s.join.peerEnt = none → s.join.ent = some e →
    (s.join.qwait = false → e + leaseSpan s ≤ max s.now at_ →
      ∃ t, exec (.quadWait at_) s = .next t ∧ t.join.qwait = true ∧ Machine.rb t K.PAIR_J_STATUS 5 = true ∧
        (jReachable s = false → t.role = .syncing ∧ t.pair.entitled = none) ∧
        (jReachable s = true → t.role = s.role ∧ t.pair.entitled = s.pair.entitled)) ∧
    (max s.now at_ < e + leaseSpan s → exec (.quadWait at_) s = .next (setNow s at_))

/-- The join's control packets and the wait of a member that is entitled alone (R404, R405, R408). -/
def Obligations.JoinControlAndWaits : Prop := Stated.JoinControl ∧ Stated.QuadWaits

/-- L+ (R46, R221, R243): power-up from OFF enters RESET with the carrier that is fitted, the timebase at 0, and what the retained store and the clock held; in
RESET a return is noted, and a bank that empties without L+ ends in OFF. -/
def Sys2Proof.Stated.PowerUpAndOff : Prop :=
  ∀ (s : State) (mv at_ : Nat) (c : Carrier),
    (s.mode = .off → 18800 ≤ mv →
      ∃ t, exec (.lPlusPresent mv c) s = .next t ∧ t.mode = .reset ∧ t.start.step = .reset ∧ t.start.kind = 1 ∧ t.power.present = true ∧ t.tick.now = 0 ∧
        t.upd.car = c ∧ t.ret.home = s.ret.home ∧ t.ret.dir = s.ret.dir ∧ t.ret.j = s.ret.jd ∧ t.ret.x = s.ret.xd ∧ t.rtc.t = s.rtc.t ∧ t.evr.ring = s.evr.ring ∧
        t.mem = State.reset.mem ∧ t.cores = State.reset.cores ∧ (mv < 19200 → Machine.rb t K.POWER_STATUS 2 = true)) ∧
    (s.mode ≠ .off → exec (.lPlusPresent mv c) s = .next s) ∧
    (s.mode = .reset → s.power.present = false →
      (∃ t, exec (.lPlusReturn at_) s = .next t ∧ t.power = { s.power with present := true, since := max s.now at_ } ∧ t.mode = .reset ∧ t.ret = s.ret ∧ t.mem = s.mem) ∧
      ∃ t, exec (.bankEmpty at_) s = .next t ∧ t.mode = .off ∧ t.start.step = .none ∧ t.ret = s.ret ∧ t.rtc = s.rtc ∧ t.evr = s.evr)

/-- A group supply (R222, R223): one that vanishes is counted and recorded with event 16#0004 and switches off the outputs of its group alone; its return is
recorded with 16#0005; a module that is OFF notes the supply alone. -/
def Sys2Proof.Stated.GroupSupplies : Prop :=
  ∀ (s : State) (g : Fin 2) (mv at_ : Nat), s.evr.queue.length < 64 →
    let on := fun (s : State) => if g = 0 then s.power.m1 else s.power.m2
    (on s = true → s.mode ≠ .off → ∃ t o, exec (.groupSupplyLost g mv at_) s = .next t ∧ on t = false ∧
      (∀ i : Fin 32, i.val / 16 = g.val → t.dio.do_[i].rel = false) ∧ (∀ i : Fin 32, i.val / 16 ≠ g.val → t.dio.do_[i] = s.dio.do_[i]) ∧
      rw t (K.POWER_M1_LOSS_CNT + g.val) = satInc (rw s (K.POWER_M1_LOSS_CNT + g.val)) ∧ t.evr.queue = s.evr.queue ++ [o] ∧ o.code = 4 ∧
      o.pay = leBytes 4 (g.val + 1) ++ leBytes 4 mv ∧ t.mode = s.mode ∧ t.mem = s.mem) ∧
    (on s = false → s.mode ≠ .off → ∃ t o, exec (.groupSupplyReturn g at_) s = .next t ∧ on t = true ∧ t.evr.queue = s.evr.queue ++ [o] ∧ o.code = 5 ∧
      o.pay = leBytes 4 (g.val + 1) ∧ (∀ i : Fin 32, t.dio.do_[i].rel = s.dio.do_[i].rel) ∧ t.mode = s.mode ∧ t.mem = s.mem) ∧
    (on s = true → s.mode = .off → ∃ t, exec (.groupSupplyLost g mv at_) s = .next t ∧ on t = false ∧ t = { setNow s at_ with power := t.power }) ∧
    (on s = false → s.mode = .off → ∃ t, exec (.groupSupplyReturn g at_) s = .next t ∧ on t = true ∧ t = { setNow s at_ with power := t.power })

/-- RESET_RELEASE (R221, R225, R226): with L+ present for 10 ms and the bank at 35.5 V a module that is not in a level-1 restart begins in CEDAR at the boot records,
its cores and its tick number anew; before that nothing happens. -/
def Sys2Proof.Stated.ResetReleases : Prop :=
  ∀ (s : State) (mv at_ : Nat), s.mode = .reset → s.power.present = true →
    (s.power.since + 1000000 ≤ max s.now at_ → 35500 ≤ mv → (s.start.kind = 1 ∨ s.start.kind = 5) →
      ∃ t, exec (.resetRelease mv at_) s = .next t ∧ t.mode = .cedar ∧ t.start.step = .boot ∧ t.start.kind = s.start.kind ∧ t.start.source = 1 ∧ t.role = .solo ∧
        t.prog = none ∧ t.tick.n = 0 ∧ t.tick.k = 0 ∧ t.tick.t = 250 ∧ t.tick.e0 = max s.now at_ + 10000 ∧ t.tick.seqOn = true ∧
        (∀ c : CoreId, t.cores[c] = Core.reset) ∧ t.ret.home = s.ret.home ∧ t.rtc.t = s.rtc.t ∧
        (s.ret.dir = [] → s.ret.badJourn = [] → t.ret.j.esc.powerup = s.ret.jd.esc.powerup + 1)) ∧
    (max s.now at_ < s.power.since + 1000000 ∨ mv < 35500 → exec (.resetRelease mv at_) s = .next (setNow s at_))

/-- Power-up, OFF and the release of RESET (R46, R221, R225, R226, R243). -/
def Obligations.PowerUpAndResetRelease : Prop := Stated.PowerUpAndOff ∧ Stated.ResetReleases

/-- Steps 3 and 4 of a start (R225, R226, R228, R234, R500, R550 to R552): the valid boot record with the higher SEQ is taken, a start without one holds in CEDAR; the
verified executive goes on to the program, a failure holds; a level-1 restart measures the executive again, and a mismatch is a second decision of the ladder; a start of
kind 3 or 4 whose boot records name another slot restarts at level 2. -/
def Obligations.BootAndExecutive : Prop :=
  ∀ (s : State) (at_ : Nat),
    let a := bootCopy s 0
    let b := bootCopy s 1
    let w := if bootValid a = true ∧ (bootValid b = true → fld b 8 8 ≤ fld a 8 8) then a else b
    let holds := fun (i : Instr) (r : Nat) => ∃ t, exec i s = .next t ∧ t.start.step = .hold ∧ t.start.reason = r ∧ t.mode = s.mode ∧ t.mem = s.mem ∧ t.ret = s.ret
    (s.start.step = .boot →
      (carrierOk s = false → holds (.bootRecordChoose true at_) 1) ∧
      (carrierOk s = true → holds (.bootRecordChoose false at_) 4) ∧
      (carrierOk s = true → bootValid a = false → bootValid b = false → holds (.bootRecordChoose true at_) 2) ∧
      (carrierOk s = true → bootValid a = true ∨ bootValid b = true →
        ∃ t, exec (.bootRecordChoose true at_) s = .next t ∧ t.mode = s.mode ∧ t.mem = s.mem ∧ t.ret = s.ret ∧ t.upd.active = fld w 4 1 ∧ t.upd.brSeq = fld w 8 8 ∧
          (s.start.kind ≠ 3 → s.start.kind ≠ 4 → t.start = { s.start with step := .exec }) ∧
          (s.start.kind = 3 ∨ s.start.kind = 4 → fld w 4 1 = s.upd.booted → t.start = { s.start with step := .program, source := 2 }) ∧
          (s.start.kind = 3 ∨ s.start.kind = 4 → fld w 4 1 ≠ s.upd.booted → t.start = s.start ∧ t.wdg.restartDue = true ∧ t.wdg.mark = .level2))) ∧
    (s.start.step = .exec → s.start.kind ≠ 3 →
      holds (.execVerify false at_) 4 ∧
      (execOk s s.upd.active = false → holds (.execVerify true at_) 3) ∧
      (execOk s s.upd.active = true →
        ∃ t, exec (.execVerify true at_) s = .next t ∧ t.start.step = .program ∧ t.start.source = 2 ∧ t.upd.booted = s.upd.active ∧ t.mem = s.mem ∧ t.ret = s.ret)) ∧
    (s.start.step = .exec → s.start.kind = 3 →
      (∃ t, exec (.execRemeasure false at_) s = .next t ∧ t.wdg.restartDue = true ∧ t.start = s.start ∧ t.mem = s.mem ∧ t.ret = s.ret ∧
        (s.wdg.again = none → t.wdg.mark = .level2) ∧
        (∀ h, s.wdg.again = some h → s.wdg.h = none → t.wdg.mark = .none ∧ t.wdg.h = some { h with early := true })) ∧
      exec (.execRemeasure true at_) s = .next { setNow s at_ with start := { s.start with step := .boot } })

/-- Steps 6 to 8 (R211 to R213, R226, R229, R234): the program of the active slot is taken where it is whole and no hold is set; a start from retained state has the
memories as the home image gives them and the tick of the last record; a cold start, commanded or for want of a record, marks every directory entry OPEN and then
leaves the cold record as the newest one. -/
def Sys2Proof.Stated.ProgramAndRecovery : Prop :=
  ∀ (s : State) (at_ : Nat),
    let u := setNow s at_
    let g := parseImage u u.upd.active
    let fit : Bool := measOk u u.upd.active (fun _ => true) && (ownerOf u u.upd.active).isSome && admitOk u g
    let holds := fun (i : Instr) (r : Nat) => ∃ t, exec i s = .next t ∧ t.start.step = .hold ∧ t.start.reason = r ∧ t.mode = s.mode ∧ t.mem = s.mem
    let marks := fun (r : Nat) => ∃ t, exec (.recover at_) s = .next t ∧ t.start = { s.start with cold := some r } ∧ (∀ d ∈ t.ret.dir, d.st = .open_) ∧
      t.ret.dir.length = s.ret.dir.length ∧ t.ret.home = s.ret.home ∧ t.ret.j = s.ret.j ∧ t.mem = s.mem
    (s.start.step = .program →
      holds (.programLoad false at_) 4 ∧ (fit = false → holds (.programLoad true at_) 5) ∧ (fit = true → s.ret.j.hold = true → holds (.programLoad true at_) 7) ∧
      (fit = true → s.ret.j.hold = false →
        ∃ t, exec (.programLoad true at_) s = .next t ∧ t.start.step = .recover ∧ t.prog = some g ∧ (∀ c : CoreId, t.mem.bank[c] = false) ∧ t.mode = s.mode)) ∧
    (∀ g last, s.start.step = .recover → s.prog = some g → s.start.cold = none → s.ret.j.cold = false → (∀ r ∈ s.ret.dir, r.st ≠ .sealed) → s.ret.badHome = [] →
      s.ret.badJourn = [] → s.ret.mramSingle = [] → lastRec s = some last → coldReason s g = 0 →
      ∃ t, exec (.recover at_) s = .next t ∧ t.start.step = .role ∧ t.start.roleTs = max s.now at_ ∧ t.ret.durTick = last.tick ∧ t.ret.durTs = last.edgeTs ∧
        t.ret.home = s.ret.home ∧ (∀ a, a < 0x100000 → cellGet 0 t.mem.cells (0x01000000 + a) = cellGet 0 s.ret.home a) ∧
        ∀ a, 0x100000 ≤ a → a < 0x7C0000 → cellGet 0 t.mem.cells (0x10000000 + (a - 0x100000)) = cellGet 0 s.ret.home a) ∧
    (∀ g, s.start.step = .recover → s.prog = some g → s.start.cold = none → s.ret.j.cold = true → marks (coldReason s g)) ∧
    (∀ g, s.start.step = .recover → s.prog = some g → s.start.cold = none → s.ret.j.cold = false → (∀ r ∈ s.ret.dir, r.st ≠ .sealed) → lastRec s = none → marks 1) ∧
    (∀ g r, s.start.step = .recover → s.prog = some g → s.start.cold = some r →
      ∃ t c, exec (.recover at_) s = .next t ∧ t.start.step = .role ∧ t.start.cold = none ∧ t.tick.lastCold = true ∧ t.ret.j.cold = false ∧ t.ret.durTick = 0 ∧
        t.ret.dir.getLast? = some c ∧ c.cold = true ∧ c.st = .applied ∧ c.tick = 0 ∧ c.valid = true ∧ Machine.rb t K.RET_STATUS 0 = true)

/-- ROLE_AT_START (R369, R396): the module waits while its join forms; without port S the module is SOLO; a partner that is ACTIVE makes it SYNCING; where no partner answers for (LEASE + 2) periods and
nothing was heard on a link it is entitled to the Pearl with the cause START. -/
def Sys2Proof.Stated.RoleAtStartChosen : Prop :=
  ∀ (s : State) (peer9 : Bool) (at_ : Nat), s.start.step = .role →
    (s.join.st = 1 → s.join.got = false → max s.now at_ < s.start.roleTs + 10000000 → exec (.roleAtStart peer9 at_) s = .next (setNow s at_)) ∧
    (s.join.st ≠ 1 →
    (sOn s = false → ∃ t, exec (.roleAtStart peer9 at_) s = .next t ∧ t.start.step = .ready ∧ t.role = s.role ∧ t.pair = s.pair ∧ t.mem = s.mem) ∧
    (∀ hb, sOn s = true → s.pair.peer = some hb → hb.role = 1 →
      ∃ t, exec (.roleAtStart peer9 at_) s = .next t ∧ t.start.step = .ready ∧ t.role = .syncing ∧ t.pair = s.pair ∧ t.mem = s.mem) ∧
    (sOn s = true → s.pair.peer = none → s.pair.witness = none → reachable s = false → s.ret.x.incomplete = false → s.pair.entitled = none → s.pair.gaveUp = false →
      (s.start.roleTs + leaseSpan s ≤ max s.now at_ → ∃ t, exec (.roleAtStart peer9 at_) s = .next t ∧ t.start.step = .ready ∧
        t.pair.entitled = some (1, max s.now at_) ∧ t.mem = s.mem) ∧
      (max s.now at_ < s.start.roleTs + leaseSpan s → exec (.roleAtStart peer9 at_) s = .next (setNow s at_))))

/-- Steps 6 to 9 of a start (R211 to R213, R226, R229, R234, R369, R396). -/
def Obligations.ProgramRecoveryAndRole : Prop := Stated.ProgramAndRecovery ∧ Stated.RoleAtStartChosen

/-- Power loss (R240 to R243): the outputs switch off and the cores and edges stop at once; the sequence ends in RESET, from which a start of kind 5 follows
where L+ is back. -/
def Sys2Proof.Stated.PowerLoss : Prop :=
  ∀ (s : State) (busy : BusBusy) (back at_ : Nat),
    (ticking s.mode = true → s.power.present = true → s.power.pf = none →
      ∃ t, exec (.powerFail busy at_) s = .next t ∧ t.power.present = false ∧ t.power.pf = some (max s.now at_, true) ∧ t.mode = s.mode ∧
        (∀ i : Fin 32, t.dio.do_[i].rel = false) ∧ (∀ c : CoreId, t.cores[c].st = .idle) ∧ t.tick.seqOn = false ∧ t.tick.phase = .none ∧
        t.mem.cells = s.mem.cells ∧ t.ret.home = s.ret.home) ∧
    (s.mode = .reset → s.power.present = true → s.power.pf = none →
      ∃ t, exec (.powerFail busy at_) s = .next t ∧ t.power = { s.power with present := false } ∧ t.mode = .reset ∧ t.ret = s.ret ∧ t.mem = s.mem) ∧
    ∀ p, s.power.pf = some p →
      (∃ t, exec (.powerFailEnd (some back) at_) s = .next t ∧ t.mode = .reset ∧ t.start.step = .reset ∧ t.start.kind = 5 ∧ t.power.pf = none ∧
        t.power.present = true ∧ t.power.since = back ∧ t.evr.queue = [] ∧ t.ret.home = s.ret.home) ∧
      ∃ t, exec (.powerFailEnd none at_) s = .next t ∧ t.mode = .reset ∧ t.start.kind = 5 ∧ t.power.present = s.power.present ∧ t.evr.queue = []

/-- WAKE_SOURCE (R238): in DORMANT a source whose WAKE_CTRL bit is set begins a start of kind 4 in CEDAR; one whose bit is clear, or one in any other mode
outside an entry to DORMANT, does nothing. -/
def Sys2Proof.Stated.WakeFromDormant : Prop :=
  ∀ (s : State) (b : Fin 10) (at_ : Nat), s.power.pf = none →
    (s.mode = .dormant → s.power.wake = 0 → Machine.rb s K.POWER_WAKE_CTRL b = true →
      ∃ t, exec (.wakeSource b at_) s = .next t ∧ t.mode = .cedar ∧ t.start.kind = 4 ∧ t.tick.seqOn = true ∧ t.tick.n = 0 ∧
        rw t K.SYS_START_CNT = satInc (rw s K.SYS_START_CNT) ∧ t.power.wake = 2 ^ b.val ∧ t.power.wakeTs = max s.now at_ ∧ (∀ c : CoreId, t.cores[c] = Core.reset)) ∧
    (s.mode = .dormant → s.power.wake = 0 → Machine.rb s K.POWER_WAKE_CTRL b = false → exec (.wakeSource b at_) s = .next (setNow s at_)) ∧
    (s.mode ≠ .dormant → exec (.wakeSource b at_) s = .next (setNow s at_))

/-- Power loss, group supplies and waking (R222, R223, R238, R240 to R243). -/
def Obligations.PowerLossAndWake : Prop := Stated.PowerLoss ∧ Stated.GroupSupplies ∧ Stated.WakeFromDormant

/-- TICK_EDGE (R50, R57, R76, R231, R503, R605): an edge of a module that works for itself begins the next tick, in HELD after a void one and in SAFE where
the SAFE flag stands; the first edge of the image's period follows the durable tick; an edge of CEDAR counts on; without a sequencer nothing happens. -/
def Obligations.TickEdges : Prop :=
  ∀ (s : State) (env : EdgeEnv),
    let e := nextEdge s
    (s.tick.seqOn = false → exec (.tickEdge env) s = .next s) ∧
    (s.tick.seqOn = true → ticking s.mode = true → Alone s → s.tick.newprog = false →
      ∃ t, exec (.tickEdge env) s = .next t ∧ t.tick.n = s.tick.n + 1 ∧ t.tick.k = s.tick.k + 1 ∧ t.tick.edgeTs = e ∧ max s.now e ≤ t.tick.now ∧
        (s.tick.late = [] → t.tick.now = max s.now e) ∧ t.tick.phase = .i ∧ t.tick.void_ = false ∧ t.role = .solo ∧ t.ret.durTick = s.ret.durTick ∧
        (∀ c : CoreId, t.cores[c].mbxIn[2] = BitVec.ofNat 32 s.ret.durTick) ∧
        t.mode = if s.mode ≠ .safe ∧ (esc s).safe = true then .safe else if s.mode = .run ∧ s.tick.void_ = true then .held else s.mode) ∧
    (s.tick.seqOn = true → s.mode = .cedar → s.start.step = .ready → s.start.served = true → Alone s → s.tick.newprog = false →
      ∃ t, exec (.tickEdge env) s = .next t ∧ t.tick.n = s.ret.durTick + 1 ∧ t.tick.k = 1 ∧ t.tick.e0 = e ∧ t.tick.t = periodT s ∧ t.tick.phase = .i ∧
        t.start.step = .none ∧ t.mode = if (esc s).safe = true then .safe else .run) ∧
    (s.tick.seqOn = true → s.mode = .cedar → s.power.pf = none → s.start.step ≠ .ready ∨ s.start.served = false →
      ∃ t, exec (.tickEdge env) s = .next t ∧ t.tick.n = s.tick.k ∧ t.tick.k = s.tick.k + 1 ∧ t.tick.edgeTs = e ∧ t.tick.phase = .none ∧ t.mode = .cedar ∧
        ∀ i : Fin 32, t.dio.do_[i].rel = false)

/-- PHASE_L_START (R52, R53, R61, R112): Phase L begins 2 µs after the edge and shows the tick; a core with a list begins with its first due entry 16 cycles later, one
without a due entry is idle; where the entry's instance descriptor does not load, the task ends with a segment load fault. -/
def Sys2Proof.Stated.PhaseLStarts : Prop :=
  ∀ (s : State) (arms : Bool),
    (s.tick.phase ≠ .i → exec (.phaseLStart arms) s = .next s) ∧
    (s.tick.phase = .i → ∃ t, exec (.phaseLStart arms) s = .next t ∧ t.tick.now = max s.now (s.tick.edgeTs + 200) ∧ t.tick.phase = .l ∧ t.tick.armed = arms ∧
      t.tick.n = s.tick.n ∧ t.tick.shownN = s.tick.n ∧ t.tick.shownTs = s.tick.edgeTs ∧
      (runsTasks s = true → ∀ (c : CoreId) (l : TList), taskList s c = some l → s.ret.j.forces = [] →
        match nextDue l s.tick.n 0 with
        | none => t.cores[c].st = .idle
        | some q => t.cores[c].pos = q.1 ∧ t.cores[c].cyc = 16 ∧ t.cores[c].inEvt = false ∧
            t.cores[c].task.pc = BitVec.ofNat 32 q.2.entry ∧ t.cores[c].task.link = [] ∧ (∀ r, t.cores[c].task.rg r = 0) ∧
            (bankBad s (idtWords c l.s0 q.2.inst) = false →
              (∀ d, instLoad s c l.s0 q.2.inst 8 = some d → t.cores[c].st = .run ∧ t.cores[c].task.s[0] = l.s0 ∧ t.cores[c].task.s[1] = d) ∧
              (instLoad s c l.s0 q.2.inst 8 = none → t.cores[c].st = .aband ∧ t.cores[c].lastFault = 0x2005))))

/-- PHASE_O_START (R52, R63, R76, R193): at edge + T - 3 µs every store has taken effect, a missing arming is counted; a core whose list has not ended makes the
tick void; else the commit of the tick begins, or its lines exceed the log and a C3 fault is raised. -/
def Sys2Proof.Stated.PhaseOStarts : Prop :=
  ∀ (s : State) (env : PhaseOEnv), env.serviced = false →
    let at_ := max s.now (s.tick.edgeTs + 100 * s.tick.t - 300)
    (s.tick.phase ≠ .l → exec (.phaseOStart env) s = .next s) ∧
    (s.tick.phase = .l → s.mode = .run → Alone s → s.wdg.h = none → s.wdg.restartDue = false →
      (overruns s ≠ [] → ∃ t, exec (.phaseOStart env) s = .next t ∧ t.tick.phase = .o ∧ t.tick.now = at_ ∧ t.tick.void_ = true ∧ t.mem.stq = [] ∧
        rw t K.TICK_OVR_CNT = satInc (rw s K.TICK_OVR_CNT) ∧ (∀ c : CoreId, t.cores[c].st = .idle ∧ t.cores[c].task.flight = []) ∧ t.ret = s.ret) ∧
      (overruns s = [] → s.mem.double = [] → openRec s = none → s.ret.mergeFrom = none → s.host.ready = [] → s.ret.x.edits = [] → s.ret.x.changes = [] →
        ∃ t, exec (.phaseOStart env) s = .next t ∧ t.tick.phase = .o ∧ t.tick.now = at_ ∧ t.tick.void_ = s.tick.void_ ∧ t.mode = .run ∧
          rw t K.TICK_ARM_MISS_CNT = (if s.tick.armed then rw s K.TICK_ARM_MISS_CNT else satInc (rw s K.TICK_ARM_MISS_CNT)) ∧
          ((∃ r, openRec t = some r ∧ r.tick = s.tick.n ∧ r.st = .open_ ∧ r.edgeTs = s.tick.edgeTs) ∨ ∃ h, t.wdg.h = some h ∧ h.cls = 3 ∧ h.code = 0x3009)))

/-- Phases L and O of a tick (R52, R53, R61, R63, R76, R112, R193). -/
def Obligations.PhasesOfTick : Prop := Stated.PhaseLStarts ∧ Stated.PhaseOStarts

/-- COMMIT_APPLIED (R195, R196): the home lines of the SEALED record stand in the home image, every other line of it is as before, and its tick is durable. -/
def Sys2Proof.Stated.CommitApplied : Prop :=
  ∀ (s : State) (r : Rec) (b : RecBody) (at_ : Nat), Alone s → s.mode ≠ .off → openRec s = some r → r.st = .sealed → r.mirror = false → r.body = some b → s.ret.acks = [] →
    ∃ t, exec (.commitApplied at_) s = .next t ∧ t.tick.now = max s.now at_ ∧ t.ret.durTick = r.tick ∧ t.ret.durTs = r.edgeTs ∧ openRec t = none ∧
      (cellsWf 0 s.ret.home = true → (b.homeLines.map Prod.fst).Nodup → (∀ l ∈ b.homeLines, l.2.length = 64) →
        (∀ l ∈ b.homeLines, cellBytes 0 t.ret.home (64 * l.1) 64 = l.2) ∧
        ∀ a, a / 64 ∉ b.homeLines.map Prod.fst → cellGet 0 t.ret.home a = cellGet 0 s.ret.home a) ∧ t.mem = s.mem ∧ t.cores = s.cores ∧ t.mode = s.mode

/-- The seal and the application of a commit record (R195, R196). -/
def Obligations.CommitSealedThenApplied : Prop := Stated.CommitSealed ∧ Stated.CommitApplied

/-- BIT_ERROR (R36, R111, R188): an error falls into the word that holds the address; a double-bit error of the SRAM leaves every byte outside that word; an error
in MRAM fails its line, of which the home image's other words stand, or is latent in its word. -/
def Sys2Proof.Stated.BitErrors : Prop :=
  ∀ (s : State) (kind p : Nat), cellsWf 0 s.mem.cells = true →
    (∃ t, exec (.bitError 0 p false) s = .next t ∧ eccWord p ∈ t.mem.single ∧ t.mem.cells = s.mem.cells ∧ t.ret = s.ret ∧ t.cores = s.cores) ∧
    (∃ t, exec (.bitError 0 p true) s = .next t ∧ eccWord p ∈ t.mem.double ∧ eccWord p ∉ t.mem.single ∧ t.ret = s.ret ∧ t.cores = s.cores ∧
      ∀ a, a < eccWord p ∨ eccWord p + 8 ≤ a → cellGet 0 t.mem.cells a = cellGet 0 s.mem.cells a) ∧
    (kind ≠ 0 → p < 0x1000000 →
      (∃ t, exec (.bitError kind p false) s = .next t ∧ p / 8 * 8 ∈ t.ret.mramSingle ∧ t.ret.home = s.ret.home ∧ t.mem = s.mem) ∧
      (p < 0x800000 → ∃ t, exec (.bitError kind p true) s = .next t ∧ p / 64 ∈ t.ret.badHome ∧ t.mem = s.mem ∧
        ∀ a, cellsWf 0 s.ret.home = true → a < p / 8 * 8 ∨ p / 8 * 8 + 8 ≤ a → cellGet 0 t.ret.home a = cellGet 0 s.ret.home a) ∧
      (0x800000 ≤ p → p < 0xC00000 → ∃ t, exec (.bitError kind p true) s = .next t ∧ (p - 0x800000) / 64 ∈ t.ret.badLog ∧ t.ret.home = s.ret.home ∧ t.mem = s.mem))

/-- Bit errors, what a load finds, and the scrub (R36, R37, R111, R188). -/
def Obligations.MemoryErrors : Prop := Stated.BitErrors ∧ Stated.SharedMemoryErrors ∧ Stated.ScrubCorrectsLine

/-- While ticks run, a request that is executed in Phase O waits for it in the order of arrival (R535, R536); nothing else changes but the session's next
number. -/
def Sys2Proof.Stated.RequestsWaitForPhaseO : Prop :=
  ∀ (s : State) (h : ReqHdr) (n dec count : Nat) (sel : List Nat) (v : Bool) (b : List Byte) (items : List WriteItem), InTurn s h → ticking s.mode = true →
    let go := fun (i : Instr) (q : Req) => ∃ t, exec i s = .next t ∧ t.host.ready = [(h.slot.val, h.seq, q)] ∧ t.host.sess[h.slot].x = h.seq + 1 ∧
      t.mem = s.mem ∧ t.ret = s.ret ∧ t.cores = s.cores ∧ t.par = s.par ∧ t.mode = s.mode ∧ t.out = s.out
    go (.write h items n) (.write items n) ∧ go (.restart h) .restart ∧ go (.coldStart h) .coldStart ∧ go (.cedarHold h v) (.cedarHold v) ∧
    go (.dormant h) .dormant ∧ go (.wake h) .wake ∧ go (.safeEnter h) .safeEnter ∧ go (.safeRelease h) .safeRelease ∧
    go (.exchange h n) (.exchange n) ∧ go (.exchangePair h n) (.exchangePair n) ∧ go (.pairSwap h) .pairSwap ∧ go (.tuneStart h n) (.tuneStart n) ∧
    go (.tuneStop h n) (.tuneStop n) ∧ go (.tuneApply h n) (.tuneApply n) ∧ go (.captureStart h n sel dec count) (.captureStart n sel dec count) ∧
    go (.captureRelease h) .captureRelease ∧ go (.supBaseline h n) (.supBaseline n) ∧ go (.updOpen h n v dec) (.updOpen n v dec) ∧
    go (.updBlock h n b) (.updBlock n b) ∧ go (.updVerify h) .updVerify ∧ go (.updClose h) .updClose ∧ go (.activate h n dec v) (.activate n dec v) ∧
    go (.identity h) .identity ∧ go (.attest h b) (.attest b) ∧ go (.ownerEnroll h b n b) (.ownerEnroll b n b) ∧ go (.ownerRevoke h n) (.ownerRevoke n) ∧
    go (.rollbackAdvance h n) (.rollbackAdvance n)

/-- EDIT, FORCE_SET and FORCE_RELEASE (R165, R170, R201): one that is acceptable enters its queue on arrival where the executive reserve of the tick holds it, and
waits for a later tick where it does not; a ninth batch is answered BUSY. -/
def Sys2Proof.Stated.EditsAndForcesQueue : Prop :=
  ∀ (s : State) (h : ReqHdr) (items : List EditItem) (item : EditItem), InTurn s h → Served s h.slot →
    let waits := fun (i : Instr) (q : Req) => ∃ t, exec i s = .next t ∧ t.host.ready = [(h.slot.val, h.seq, q)] ∧ t.host.sess[h.slot].x = h.seq + 1 ∧
      t.ret = s.ret ∧ t.mem = s.mem ∧ t.cores = s.cores
    (1 ≤ items.length → items.length ≤ 64 → s.ret.x.edits.length < 8 → workCost (.edit items) ≤ resvLeft s →
      ∃ t, exec (.edit h items) s = .next t ∧ t.ret.x.edits = s.ret.x.edits ++ [{ slot := h.slot, seq := h.seq, items := items }] ∧ t.ret.j = s.ret.j ∧
        t.host.ready = [] ∧ t.mem = s.mem ∧ t.cores = s.cores) ∧
    (1 ≤ items.length → items.length ≤ 64 → 8 ≤ s.ret.x.edits.length → workCost (.edit items) ≤ resvLeft s →
      ∃ t, exec (.edit h items) s = .next t ∧ t.ret.x = s.ret.x ∧ Answers s t h.slot h.seq stBusy .none ∧ t.mem = s.mem) ∧
    (resvLeft s < workCost (.edit items) → waits (.edit h items) (.edit items)) ∧
    (2 ≤ resvLeft s →
      (∃ t, exec (.forceSet h item) s = .next t ∧ t.ret.x.changes = s.ret.x.changes ++ [{ slot := h.slot, seq := h.seq, set := true, item := item }] ∧
        t.ret.j = s.ret.j ∧ t.mem = s.mem ∧ t.cores = s.cores) ∧
      ∃ t, exec (.forceRelease h item) s = .next t ∧ t.ret.x.changes = s.ret.x.changes ++ [{ slot := h.slot, seq := h.seq, set := false, item := item }] ∧
        t.ret.j = s.ret.j ∧ t.mem = s.mem ∧ t.cores = s.cores) ∧
    (resvLeft s < 2 → waits (.forceSet h item) (.forceSet item) ∧ waits (.forceRelease h item) (.forceRelease item))

/-- The modes as Phase O executes their requests (R225, R235, R236, R503, R505): RESTART and COLD_START restart after the response, CEDAR_HOLD sets its flag,
SAFE_ENTER and SAFE_RELEASE set and clear the SAFE flag, a DORMANT that waits begins the entry. -/
def Sys2Proof.Stated.ModeRequests : Prop :=
  ∀ (s : State) (slot : Fin 8) (seq : Nat) (v : Bool),
    (Served s slot →
      Answers s (runOne s slot seq .restart) slot seq stOk .restart ∧
      (let t := runOne s slot seq .coldStart; Answers s t slot seq stOk .restart ∧ t.ret.j.cold = true) ∧
      (let t := runOne s slot seq (.cedarHold v); Answers s t slot seq stOk .none ∧ t.ret.j.hold = v ∧ t.mode = s.mode) ∧
      (let t := runOne s slot seq .safeEnter; Answers s t slot seq stOk .none ∧ (esc t).safe = true ∧ (esc t).safeCause = 3 ∧ t.mode = s.mode) ∧
      (s.tick.phase = .l → s.host.ready = [(slot.val, seq, .dormant)] →
        let t := dormantFront s; t.power.dorm = some (s.tick.n, slot.val, seq) ∧ t.power.wake = 0 ∧ t.host.ready = [] ∧ t.mode = s.mode)) ∧
    (s.mode = .safe → s.ret.j.hdrs[slot].priv = true →
      let t := runOne s slot seq .safeRelease
      Answers s t slot seq stOk .restart ∧ (esc t).safe = false ∧ (esc t).clearTs = s.now ∧ t.mode = s.mode)

/-- EDIT and force requests (R165, R170, R201), and the requests that change the mode (R225, R235, R236, R503, R505). -/
def Obligations.EditForceAndModeRequests : Prop := Stated.EditsAndForcesQueue ∧ Stated.ModeRequests

/-- The tuning unit's requests as Phase O executes them (R346, R352, R356, R358). -/
def Obligations.TuneRequests : Prop :=
  ∀ (s : State) (slot : Fin 8) (seq : Nat) (n : Fin 96) (sel : List Nat) (dec count : Nat), Served s slot → n.val < nloop s →
    let run := fun (q : Req) => runOne s slot seq q
    let ok := fun (t : State) => Answers s t slot seq stOk .none ∧ t.mem = s.mem ∧ t.cores = s.cores
    let st := (loopRec s n).state
    (loopCfgFail s n = 0 → tuneCfgOk s n = true → st = 1 ∨ st = 2 → (loopRec s n).flag 2 = false → capBusy s = false →
      ok (run (.tuneStart n)) ∧ (∃ r, (run (.tuneStart n)).loop.run = some r ∧ r.loop = n.val ∧ r.owner = some slot.val) ∧
        (run (.tuneStart n)).loop.cap.st = 1) ∧
    (∀ r, s.loop.run = some r → r.loop = n.val → r.owner = some slot.val →
      ok (run (.tuneStop n)) ∧ (run (.tuneStop n)).loop.run = none ∧ (loopRec (run (.tuneStop n)) n).state ≠ 3) ∧
    (RetWordsWf s → (field (rw s (K.TUNEk_PROP_STATE n)) 1 0).toNat = 1 → st ≤ 1 →
      ok (run (.tuneApply n)) ∧ rw (run (.tuneApply n)) (K.LOOPk_KP n) = rw s (K.TUNEk_PROP_KP n) ∧
        rw (run (.tuneApply n)) (K.LOOPk_KI n) = rw s (K.TUNEk_PROP_KI n) ∧ rw (run (.tuneApply n)) (K.LOOPk_KD n) = rw s (K.TUNEk_PROP_KD n) ∧
        rw (run (.tuneApply n)) (K.LOOPk_TF n) = rw s (K.TUNEk_PROP_TF n)) ∧
    (sel.length = 4 → (∀ x ∈ sel, x ≤ 8) → 1 ≤ dec → dec ≤ 256 → 1 ≤ count → count ≤ 16384 → capBusy s = false → st = 1 ∨ st = 2 →
      ok (run (.captureStart n sel dec count)) ∧ (run (.captureStart n sel dec count)).loop.cap =
        { st := 1, loop := n, owner := some slot.val, sel := sel, dec := dec, count := count, k := 0, data := [] }) ∧
    (s.loop.cap.st = 1 ∨ s.loop.cap.st = 3 → s.loop.cap.owner = some slot.val → s.loop.run = none →
      ok (run .captureRelease) ∧ (run .captureRelease).loop.cap = { s.loop.cap with st := 0 }) ∧
    (ok (run (.supBaseline n)) ∧ (run (.supBaseline n)).loop.rt[n].baseReq = true)

/-- Exchange and swap as Phase O executes them (R176, R386, R387): an exchange that passes its check begins with the image of its slot; one through the standby, and a
planned swap, need a STANDBY partner. -/
def Sys2Proof.Stated.ExchangeAndSwapRequests : Prop :=
  ∀ (s : State) (slot : Fin 8) (seq sl : Nat), s.ret.j.hdrs[slot].priv = true → s.mode = .run →
    (drives s.role = true → exchangeCheck s slot.val sl = stOk →
      let t := runOne s slot seq (.exchange sl)
      t.exch.st = 1 ∧ t.exch.slot = sl ∧ t.exch.image = some (parseImage s sl) ∧ t.exch.req = some (slot.val, seq) ∧ t.exch.pair = false ∧ t.mem = s.mem ∧ t.ret = s.ret) ∧
    (xpairCheck s slot.val sl = stOk →
      let t := runOne s slot seq (.exchangePair sl)
      t.exch.st = 1 ∧ t.exch.slot = sl ∧ t.exch.pair = true ∧ t.pair.xpair = true ∧ rn t K.PAIR_SWAP_STATE = 1 ∧ t.mem = s.mem ∧ t.ret = s.ret) ∧
    (swapCheck s = stOk → s.host.ready = [(slot.val, seq, .pairSwap)] → workFits s slot.val 2 = true →
      let t := swapFront s
      t.pair.swap = some s.tick.n ∧ t.pair.swapReq = some (slot.val, seq) ∧ rn t K.PAIR_SWAP_STATE = 3 ∧ t.role = s.role ∧ t.mem = s.mem) ∧
    (swapCheck s ≠ stOk → drives s.role = true → ticking s.mode = true → Answers s (runOne s slot seq .pairSwap) slot seq (swapCheck s) .none)

/-- EXCHANGE_PRELOAD (R178): a preload whose measurement agrees stands in the idle banks; one that does not ends the exchange. -/
def Sys2Proof.Stated.PreloadCompletes : Prop :=
  ∀ (s : State) (g : Image), s.exch.image = some g → s.exch.st = 1 → s.exch.loaded = false → s.exch.pair = false → cellsWf 0 s.mem.cells = true →
    (∀ q ∈ g.code, q.1 < 8 ∧ q.2.length ≤ 0x20000) →
    let ok := measOk s s.exch.slot fun e => decide (e.id = 0x11)
    (ok = true → ∃ t, exec .exchangePreload s = .next t ∧ t.exch = { s.exch with loaded := true } ∧ t.mem.bank = s.mem.bank ∧ t.ret = s.ret ∧
      ∀ (c : CoreId) (a : Nat), a < 0x20000 → cellGet 0 t.mem.cells (activeBank s c + a) = cellGet 0 s.mem.cells (activeBank s c + a)) ∧
    (ok = false → ∃ t, exec .exchangePreload s = .next t ∧ t.exch.st = 0 ∧ t.exch.image = none ∧ t.mem = s.mem)

/-- Exchanges, their preload and planned swaps (R176, R178, R386, R387). -/
def Obligations.ExchangeAndSwapBegin : Prop := Stated.ExchangeAndSwapRequests ∧ Stated.PreloadCompletes

/-- READ, AUTH and CLOSE, and the ends of a session (R530 to R532, R539): a READ in turn is executed at once and leaves one word per address; AUTH with a key that verifies gives
privilege; CLOSE and a time-out free the slot. -/
def Sys2Proof.Stated.SessionRequests : Prop :=
  ∀ (s : State) (h : ReqHdr) (blk word count flags sub at_ : Nat) (key sig : List Byte),
    (InTurn s h → Served s h.slot → s.ret.x.edits = [] → s.ret.x.changes = [] → 1 ≤ count → count ≤ 256 → word + count ≤ 65536 → flags ≤ 1 → blk < 65536 →
      ∃ t b, exec (.read h blk word count flags sub) s = .next t ∧ t.host.sess[h.slot].store.getLast? = some (h.seq, 1, stOk, b) ∧ b.length = 4 * count ∧
        t.mem = s.mem ∧ t.cores = s.cores ∧ t.mode = s.mode) ∧
    (InTurn s h → s.mode = .cedar → s.ret.x.edits = [] → s.ret.x.changes = [] →
      (∀ i : Fin 4, s.host.lockEnd = none → key.length = 57 → sig.length = 114 → keyIndex s key = some i.val → s.host.sess[h.slot].hrand ≠ [] →
        Config.ed448Verify key (ascii "BHP-AUTH" ++ leBytes 8 s.ret.j.hdrs[h.slot].nonce.toNat ++ s.host.sess[h.slot].hrand ++ s.host.sess[h.slot].mrand) sig = true →
        ∃ t, exec (.auth h key sig) s = .next t ∧ t.ret.j.hdrs[h.slot].priv = true ∧ t.ret.j.hdrs[h.slot].hkey = i.val ∧ t.mode = s.mode ∧ t.mem = s.mem) ∧
      ∃ t, exec (.close h) s = .next t ∧ t.ret.j.hdrs[h.slot].open_ = false ∧ t.ret.j.hdrs[h.slot].priv = false ∧ t.mem = s.mem ∧
        ∀ q : Fin 8, q ≠ h.slot → t.ret.j.hdrs[q] = s.ret.j.hdrs[q]) ∧
    (serves s = true → s.ret.j.hdrs[h.slot].open_ = true → s.host.sess[h.slot].idleTs + 100000000 * rn s K.HOST_SESS_TO ≤ max s.now at_ →
      ∃ t, exec (.sessionTimeout h.slot at_) s = .next t ∧ t.ret.j.hdrs[h.slot].open_ = false ∧ (∀ q : Fin 8, q ≠ h.slot → t.ret.j.hdrs[q] = s.ret.j.hdrs[q]) ∧ t.mem = s.mem) ∧
    ∀ e, s.host.lockEnd = some e → e ≤ max s.now at_ → ∃ t, exec (.authLockoutEnd at_) s = .next t ∧ t.host.lockEnd = none ∧ t.ret = s.ret ∧ t.mem = s.mem

/-- HELLO (R201, R529): where no open session has its random bytes, the lowest free slot opens with next number 1 and without privilege; without one the host gets a
NOTICE; a HELLO that the executive reserve of the tick does not hold waits. -/
def Sys2Proof.Stated.HelloOpensSession : Prop :=
  ∀ (s : State) (ip : Word) (port : Half) (body : List Byte) (at_ : Nat), serves s = true → body.length = 88 →
    (∀ i : Fin 8, s.ret.j.hdrs[i].open_ = true → s.ret.j.hdrs[i].hrand8 ≠ (body.drop 56).take 8) →
    let fits : Prop := direct s = true ∨ 3 ≤ resvLeft s ∧ s.host.hellos = []
    (∀ i, freeSlot s = some i → fits →
      ∃ t, exec (.hello ip port body at_) s = .next t ∧ t.ret.j.hdrs[i].open_ = true ∧ t.ret.j.hdrs[i].priv = false ∧ t.ret.j.hdrs[i].next = 1 ∧
        t.ret.j.hdrs[i].nonce ≠ 0 ∧ t.host.sess[i].x = 1 ∧ (∀ q : Fin 8, q ≠ i → t.ret.j.hdrs[q] = s.ret.j.hdrs[q]) ∧ t.mem = s.mem ∧ t.mode = s.mode) ∧
    (¬ fits → exec (.hello ip port body at_) s =
      .next { setNow s at_ with host := { s.host with hellos := s.host.hellos ++ [(ip, port, body)] } }) ∧
    (freeSlot s = none → fits → ∃ t m, exec (.hello ip port body at_) s = .next t ∧ t.out = .bhp (max s.now at_) ip port.toNat m :: s.out ∧ t.ret = s.ret ∧
      Machine.rb t K.HOST_STATUS 2 = true)

/-- HELLO, READ, AUTH, CLOSE and the ends of a session (R201, R529 to R532, R539). -/
def Obligations.SessionsOpenAndClose : Prop := Stated.HelloOpensSession ∧ Stated.SessionRequests

/-- What becomes of a request that is not taken (R209, R528, R535): without an open session of its nonce it gets a NOTICE, with a wrong TAG it is discarded and counted, 16
numbers ahead it is answered WINDOW, and a duplicate of one under way is counted. -/
def Sys2Proof.Stated.RequestsNotTaken : Prop :=
  ∀ (s : State) (h : ReqHdr) (q : Req), serves s = true →
    let d := s.ret.j.hdrs[h.slot]
    let e := s.ret.jd.hdrs[h.slot].next
    (d.open_ = false ∨ d.nonce ≠ h.nonce → ∃ t m, arrive h q s = .next t ∧ t.out = .bhp (max s.now h.at_) h.ip h.port.toNat m :: s.out ∧ t.ret = s.ret ∧ t.host = s.host ∧
      t.par = s.par ∧ t.mem = s.mem) ∧
    (d.open_ = true → d.nonce = h.nonce → h.tagOk = false →
      ∃ t, arrive h q s = .next t ∧ rw t K.HOST_MACFAIL_CNT = satInc (rw s K.HOST_MACFAIL_CNT) ∧ Machine.rb t K.HOST_STATUS 0 = true ∧ t.ret = s.ret ∧ t.host = s.host ∧
        t.mem = s.mem ∧ t.out = s.out) ∧
    (d.open_ = true → d.nonce = h.nonce → h.tagOk = true → s.mode ≠ .dormant →
      (e + 16 ≤ h.seq → ∃ t m, arrive h q s = .next t ∧ t.out = .bhp (max s.now h.at_) h.ip h.port.toNat m :: s.out ∧ t.ret = s.ret ∧ t.host.ready = s.host.ready ∧
        Machine.rb t K.HOST_STATUS 3 = true ∧ t.mem = s.mem) ∧
      (e ≤ h.seq → h.seq < e + 16 → h.seq < s.host.sess[h.slot].x →
        ∃ t, arrive h q s = .next t ∧ rw t K.HOST_DUP_CNT = satInc (rw s K.HOST_DUP_CNT) ∧ t.ret = s.ret ∧ t.host.ready = s.host.ready ∧ t.out = s.out ∧ t.mem = s.mem))

/-- Requests in CEDAR and DORMANT (R231, R235, R237, R238, Table 7-6): CEDAR executes RESTART, COLD_START and CEDAR_HOLD at once, what it does not serve it answers CEDAR; WAKE
ends DORMANT. -/
def Sys2Proof.Stated.RequestsOutsideTicks : Prop :=
  ∀ (s : State) (h : ReqHdr) (v : Bool), InTurn s h → s.ret.x.edits = [] → s.ret.x.changes = [] → s.ret.j.hdrs[h.slot].priv = true →
    (s.mode = .cedar →
      (∃ t, exec (.restart h) s = .next t ∧ t.mode = .cedar ∧ t.wdg.restartDue = true ∧ t.wdg.mark = .level2 ∧ t.mem = s.mem) ∧
      (∃ t, exec (.coldStart h) s = .next t ∧ t.ret.j.cold = true ∧ t.ret.jd.cold = true ∧ t.mem = s.mem) ∧
      (∃ t, exec (.cedarHold h v) s = .next t ∧ t.ret.j.hold = v ∧ t.ret.jd.hold = v ∧ t.mode = .cedar ∧ t.mem = s.mem) ∧
      ∃ t e, exec (.safeEnter h) s = .next t ∧ e ∈ t.ret.j.results ∧ e.slot = h.slot.val ∧ e.seq = h.seq ∧ e.status = stCedar ∧ (esc t).safe = (esc s).safe ∧ t.mem = s.mem) ∧
    (s.mode = .dormant → s.power.wake = 0 → s.power.pf = none →
      ∃ t, exec (.wake h) s = .next t ∧ t.mode = .cedar ∧ t.start.kind = 4 ∧ t.power.wake = 0x400)

/-- Requests that are not taken, and requests in CEDAR and DORMANT (R209, R231, R235, R237, R238, R528, R535). -/
def Obligations.RequestsRefusedOrAtOnce : Prop := Stated.RequestsNotTaken ∧ Stated.RequestsOutsideTicks

/-- The updater's requests as Phase O executes them (R562 to R565, R569, R570): an open takes the slot and its length, a block, a verification and an activation wait
for the carrier or begin, a close frees the holder. -/
def Sys2Proof.Stated.UpdateRequests : Prop :=
  ∀ (s : State) (slot : Fin 8) (seq sl len ofs mode : Nat) (resume : Bool) (d : List Byte), Served s slot → s.upd.op = .none → s.upd.recovering = false →
    s.upd.waiting = [] →
    (sl ≤ 1 → updBusy s slot = false → sl ≠ s.upd.active → (car s).prot = false → len % 8 = 0 → 1024 ≤ len → len ≤ slotSize s →
      let t := runOne s slot seq (.updOpen sl resume len)
      Answers s t slot seq stOk .none ∧ (car t).slot = sl ∧ (car t).holder = slot.val ∧ (car t).length = len ∧ t.upd.car = s.upd.car ∧ t.mem = s.mem) ∧
    (d.length % 8 = 0 → 8 ≤ d.length → d.length ≤ 1024 → ofs % 8 = 0 → blockFail s slot.val ofs d = 0 →
      let t := runOne s slot seq (.updBlock ofs d)
      (∃ k b, t.upd.op = .write slot seq (slotBase s (car s).slot + ofs) d k b) ∧ t.upd.car = s.upd.car ∧ t.mem = s.mem) ∧
    ((car s).holder = slot.val →
      (let t := runOne s slot seq .updVerify; t.upd.op = .verify slot seq ∧ t.upd.car = s.upd.car ∧ t.mem = s.mem) ∧
      (let t := runOne s slot seq .updClose; Answers s t slot seq stOk .none ∧ (car t).holder = 0xFF ∧ t.upd.car = s.upd.car ∧ t.mem = s.mem)) ∧
    ((car s).holder ≠ slot.val → let t := runOne s slot seq .updVerify; Answers s t slot seq stState .none ∧ t.upd.op = .none ∧ t.upd.car = s.upd.car) ∧
    (mode = 1 ∨ mode = 2 → slotVerified s sl = true → (car s).prot = false → updBusy s slot = false →
      let t := runOne s slot seq (.activate sl mode false)
      (∃ k, t.upd.op = .activate (some (slot.val, seq)) sl mode false k) ∧ t.upd.active = s.upd.active ∧ t.upd.car = s.upd.car ∧ t.mem = s.mem)

/-- The ends of carrier operations (R564, R566, R562, R551, R568, R569): an erased sector reads 16#FF, a programmed block reads its data, a verification reports its
result, an activation makes its slot the active one with the next SEQ, a recovery ends, an idle update is released. -/
def Sys2Proof.Stated.CarrierOperations : Prop :=
  ∀ (s : State) (at_ : Nat),
    (s.upd.op = .erase → carDurable s = true →
      ∃ t, exec (.sectorEraseEnd true at_) s = .next t ∧ (∀ a, a / 65536 = (car s).opsect → cellGet 0xFF t.upd.car.cells a = 0xFF) ∧
        (∀ a, a / 65536 ≠ (car s).opsect → cellGet 0xFF t.upd.car.cells a = cellGet 0xFF s.upd.car.cells a) ∧
        rw t K.UPD_ERASE_CNT = satInc (rw s K.UPD_ERASE_CNT) ∧ t.mem = s.mem) ∧
    (s.upd.op = .erase → carDurable s = true → ∃ t, exec (.sectorEraseEnd false at_) s = .next t ∧ t.upd.recovering = true ∧ t.upd.op = .none ∧
      t.upd.car = s.upd.car ∧ t.mem = s.mem) ∧
    (∀ slot seq ofs d b, s.upd.op = .write slot seq ofs d 1 b → ticking s.mode = true → cellsWf 0xFF s.upd.car.cells = true →
      ∃ t, exec (.blockProgramEnd true at_) s = .next t ∧ cellBytes 0xFF t.upd.car.cells ofs d.length = d ∧
        (∀ a, a < ofs ∨ ofs + d.length ≤ a → cellGet 0xFF t.upd.car.cells a = cellGet 0xFF s.upd.car.cells a) ∧ t.upd.op = .write slot seq ofs d 2 true ∧
        t.mem = s.mem ∧ t.ret = s.ret) ∧
    (∀ slot seq ok, s.upd.op = .verify slot seq →
      let code := if ok = true then verifyCode s (car s).slot else 7
      ∃ t, exec (.verifyEnd ok at_) s = .next t ∧ t.upd.vresult = code ∧ (code = 0 → s.upd.waiting = [] → (car t).state = 3) ∧ (code ≠ 0 → Machine.rb t K.UPD_STATUS 2 = true) ∧
        t.upd.car = s.upd.car ∧ t.mem = s.mem) ∧
    (∀ req slot mode mig, s.upd.op = .activate req slot mode mig 1 →
      ∃ t, exec (.activationWriteEnd true at_) s = .next t ∧ t.upd.active = slot ∧ t.upd.brSeq = s.upd.brSeq + 1 ∧ t.upd.copy = 1 - s.upd.copy ∧ t.mem = s.mem) ∧
    (s.upd.recovering = true → startReads s = false → carDurable s = true → (car s).opkind = 1 →
      ∃ t, exec (.carrierRecoveryStep true at_) s = .next t ∧ t.upd.recovering = false ∧ rw t K.UPD_RECOVER_CNT = satInc (rw s K.UPD_RECOVER_CNT) ∧
        (∀ a, a / 65536 = (car s).opsect → cellGet 0xFF t.upd.car.cells a = 0xFF) ∧ t.mem = s.mem) ∧
    ((car s).holder ≠ 0xFF → s.upd.idleTs + 6000000000 ≤ max s.now at_ →
      ∃ t, exec (.updateIdleTimeout at_) s = .next t ∧ (car t).holder = 0xFF ∧ Machine.rb t K.UPD_STATUS 0 = true ∧ t.upd.car = s.upd.car ∧ t.mem = s.mem)

/-- The updater (R551, R562 to R566, R568 to R570). -/
def Obligations.UpdateUnit : Prop := Stated.UpdateRequests ∧ Stated.CarrierOperations

/-- WRITE, IDENTITY, ATTEST and the owner keys as Phase O executes them (R542, R557 to R561, R572, R573). -/
def Obligations.WriteAndTrustRequests : Prop :=
  ∀ (s : State) (slot : Fin 8) (seq sub step : Nat) (w : WriteItem) (o : Fin 4) (key sig c : List Byte), Served s slot →
    (let q := writeItem s slot slot.val true (w.blk.toNat * 65536 + w.word.toNat) w.value sub 0
     let t := runOne s slot seq (.write [w] sub)
     (∃ e, e ∈ t.ret.j.results ∧ e.slot = slot.val ∧ e.seq = seq ∧ e.status = stOk ∧
        e.data = leBytes 8 (if q.2 = 1 then 1 else 0) ++ leBytes 8 (if q.2 = 2 then 1 else 0)) ∧
      ∀ k, k ≠ K.HOST_REQ_CNT → rw t k = rw q.1 k) ∧
    (let t := runOne s slot seq .identity
     t.host.sess[slot].store.getLast? = some (seq, 0x55, stOk, identityBody) ∧ t.mem = s.mem ∧ t.trust = s.trust) ∧
    (c.length = 32 →
      let t := runOne s slot seq (.attest c)
      (∃ b, t.host.sess[slot].store.getLast? = some (seq, 0x56, stOk, b)) ∧ rw t K.TRUST_ATTEST_CNT = satInc (rw s K.TRUST_ATTEST_CNT) ∧ t.trust = s.trust) ∧
    (s.trust.owners[o].enrolled = false → (noOwner s = true → o = 0) → key.length = 57 →
      Config.ed448Verify key (ascii "VL-OWNER" ++ devId ++ leBytes 8 s.ret.j.hdrs[slot].nonce.toNat) sig = true →
      let t := runOne s slot seq (.ownerEnroll key o sig)
      Answers s t slot seq stOk .none ∧ t.trust.owners[o] = { key := key, enrolled := true, revoked := false } ∧
        ∀ q : Fin 4, q ≠ o → t.trust.owners[q] = s.trust.owners[q]) ∧
    (s.trust.owners[o].enrolled = true →
      let t := runOne s slot seq (.ownerRevoke o)
      ((∃ q : Fin 4, q ≠ o ∧ s.trust.owners[q].enrolled = true ∧ s.trust.owners[q].revoked = false) →
        Answers s t slot seq stOk .none ∧ t.trust.owners[o].revoked = true ∧ t.trust.owners[o].enrolled = true ∧ ∀ q : Fin 4, q ≠ o → t.trust.owners[q] = s.trust.owners[q]) ∧
      ((∀ q : Fin 4, q ≠ o → s.trust.owners[q].enrolled = true → s.trust.owners[q].revoked = true) → Answers s t slot seq stState .none ∧ t.trust = s.trust)) ∧
    (∀ g, s.prog = some g → g.rollback = step → s.trust.rollback < step →
      let t := runOne s slot seq (.rollbackAdvance step)
      Answers s t slot seq stOk .none ∧ t.trust = { s.trust with rollback := step })

/-- The network (R522 to R525, R545): announcements of the shared address by the holder of the Pearl, ARP and ICMP answers at the module's addresses, frames through the
switch, datagrams that are discarded, the state of a port. -/
def Obligations.Network : Prop :=
  ∀ (s : State) (target sender : Word) (data : List Byte) (port : Fin 2) (speed : Fin 4) (full : Bool) (at_ : Nat), ParWf s →
    let sends := fun (i : Instr) (b : Bool) => (b = true → ∃ t k a d, exec i s = .next t ∧ t.out = .eth (max s.now at_) k a d :: s.out ∧ t.ret = s.ret ∧ t.par = s.par ∧ t.mem = s.mem) ∧
      (b = false → exec i s = .next (setNow s at_))
    sends (.arpRequest target sender at_) (serves s && answersAt s target) ∧
    sends (.icmpEcho target sender data at_) (serves s && answersAt s target) ∧
    sends (.switchForward port data at_) s.power.present ∧
    (0 < s.host.garp → hasPearl s = true →
      ∃ t, exec .gratuitousArp s = .next t ∧ t.tick.now = max s.now s.host.garpAt ∧ t.out = .eth (max s.now s.host.garpAt) 1 (rw s K.PAIR_HOSTADDR) [] :: s.out ∧
        t.host.garp = s.host.garp - 1 ∧ t.host.garpAt = s.host.garpAt + 20000000 ∧ t.mem = s.mem) ∧
    (0 < s.host.garp → hasPearl s = false → ∃ t, exec .gratuitousArp s = .next t ∧ t.host.garp = 0 ∧ t.out = s.out ∧ t.mem = s.mem) ∧
    (serves s = true → ∃ t, exec (.datagramDiscard true at_) s = .next t ∧ rw t K.HOST_DROP_CNT = satInc (rw s K.HOST_DROP_CNT) ∧ t.out = s.out ∧ t.ret = s.ret ∧ t.mem = s.mem) ∧
    (s.mode ≠ .off → ∃ t, exec (.portLinkChange port speed full at_) s = .next t ∧ t.ret = s.ret ∧ t.mem = s.mem ∧
      (if port = 0 then rn t K.HOST_PORTS % 256 else rn t K.HOST_PORTS / 256) = speed.val + (if full = true ∧ speed ≠ 0 then 4 else 0) ∧
      (if port = 0 then rn t K.HOST_PORTS / 256 = rn s K.HOST_PORTS / 256 else rn t K.HOST_PORTS % 256 = rn s K.HOST_PORTS % 256))

/-- RC_READ and REGISTER_WRITE (R16, R17, R21, R237, R539, R541, R542): where the module's state and role serve it, a read answers the word, 0 where it is reserved or privileged, and clears an RC word of what it returned; a write
of a plain word takes its place where the value is in its range, is counted where it is not, and is ignored at a read-only or privileged word; what they do not serve changes nothing. -/
def Obligations.RegisterAccess : Prop :=
  ∀ (s : State) (slot : Fin 8) (blk word : Half) (v : Word) (noClr : Bool) (sub : Nat), serves s = true → s.ret.j.hdrs[slot].open_ = true → ParWf s → RetWordsWf s →
    let k := blk.toNat * 65536 + word.toNat
    let item : WriteItem := { blk := blk, word := word, value := v }
    let priv := s.ret.j.hdrs[slot].priv
    let reads : Prop := precheck s slot (.read blk.toNat word.toNat 1 0 sub) = stOk
    let writes : Prop := precheck s slot (.write [item] sub) = stOk
    (¬ reads → exec (.rcRead slot blk word noClr sub) s = .next s) ∧ (¬ writes → exec (.registerWrite slot item sub) s = .next s) ∧
    (wordSpec k = none → reads → ∃ t, exec (.rcRead slot blk word noClr sub) s = .next t ∧ t = { s with out := .value slot k 0 :: s.out }) ∧
    (∀ r, wordSpec k = some r → reads → r.priv = true → priv = false →
      ∃ t, exec (.rcRead slot blk word noClr sub) s = .next t ∧ t = { s with out := .value slot k 0 :: s.out }) ∧
    (∀ r, wordSpec k = some r → reads → r.priv = false ∨ priv = true → k < K.RTC_SEC_TS_LO ∨ K.RTC_STATUS ≤ k →
      ∃ t, exec (.rcRead slot blk word noClr sub) s = .next t ∧ t.out = .value slot k (wordValue s slot k) :: s.out ∧ t.mem = s.mem ∧
        rw t k = (if r.rc = true ∧ noClr = false then rw s k &&& ~~~wordValue s slot k else rw s k) ∧ ∀ q, q ≠ k → rw t q = rw s q) ∧
    (wordSpec k = none → writes → exec (.registerWrite slot item sub) s = .next (retDirect s)) ∧
    (∀ r, wordSpec k = some r → writes → r.wr = false ∨ (r.priv = true ∧ priv = false) → exec (.registerWrite slot item sub) s = .next (retDirect s)) ∧
    (∀ r, wordSpec k = some r → writes → r.wr = true → r.priv = false ∨ priv = true → k / 65536 ≠ 0x600 → k / 65536 ≠ 0x500 → (r.en && eBlocked s k) = false →
      enableWrite s k v = none →
      k ∉ [K.RTC_SET_CMD, K.EVR_CLEAR, K.EVR_CUR, K.HOST_IPADDR, K.HOST_NETMASK, K.HOST_GATEWAY, K.WDG_W_OPEN_CFG, K.WDG_W_CLOSE_CFG] →
      (∀ u, wordChk s k v = some u → k / 65536 ≠ 0xA00 ∨ s.dio.on = false ∨ s.now ≤ s.dio.sampled →
        ∃ t, exec (.registerWrite slot item sub) s = .next t ∧ rw t k = u ∧ (∀ q, q ≠ k → rw t q = rw s q) ∧ t.mem = s.mem ∧ t.cores = s.cores) ∧
      (wordChk s k v = none → k ≠ r.blk * 65536 + 0xE → k ≠ r.blk * 65536 + 0xF →
        ∃ t, exec (.registerWrite slot item sub) s = .next t ∧ rw t k = rw s k ∧ rw t (r.blk * 65536 + 0xF) = satInc (rw s (r.blk * 65536 + 0xF)) ∧
          Machine.rb t (r.blk * 65536 + 0xE) 0 = true ∧ t.mem = s.mem ∧ t.cores = s.cores))

/-- The module as delivered (the model's choice, log 14): OFF, its memories empty, every word at the reset value of its table, no session open. -/
def Obligations.StateAtReset : Prop :=
  Canonical State.reset ∧ State.reset.mode = .off ∧ State.reset.pending = [] ∧ (∀ a, cellGet 0 State.reset.mem.cells a = 0) ∧
    (∀ k, rw State.reset k = resetWord k) ∧ (∀ i : Fin 8, State.reset.ret.j.hdrs[i].open_ = false) ∧
    (∀ (c : CoreId) (r : RegNo), State.reset.cores[c].task.rg r = 0) ∧ rn State.reset K.HOST_SESS_TO = 60 ∧ rn State.reset K.EVR_BURST_MS = 1000

/-- Every step keeps the canonical form of the memories, the home image, the event ring and the parameter words. -/
def Obligations.CanonicalKept : Prop := ∀ s t : State, Canonical s → step s = .next t → Canonical t

/-- Phase O executes what waits (R63, R535, R536): where no result, no HELLO, no value edit and no force change comes first, the request in front is executed if it fits the
executive's reserve, then those behind it; a tick that is not void comes to this with every request that waited. -/
def Sys2Proof.Stated.PhaseOServesRequests : Prop :=
  (∀ (s : State) (slot : Fin 8) (seq : Nat) (q : Req) (r : List (Nat × Nat × Req)), s.host.ready = (slot.val, seq, q) :: r → s.host.done = [] →
    s.host.hellos = [] → s.ret.x.edits = [] → s.ret.x.changes = [] → s.power.dorm = none → s.pair.swap = none → reqFits s slot q = true →
    hostPhaseO s = carPhaseO (runSpare (runReady false r [] (runOne s slot seq q)))) ∧
  ∀ (s : State) (env : PhaseOEnv), env.serviced = false → s.tick.phase = .l → s.mode = .run → Alone s → s.wdg.h = none → s.wdg.restartDue = false →
    overruns s = [] → (∀ w ∈ s.host.ready, w.2.2 ≠ .dormant ∧ w.2.2 ≠ .pairSwap) →
    ∃ u, exec (.phaseOStart env) s = .next (if runsTasks s = true then retunes (identEnd (hostPhaseO u)) else hostPhaseO u) ∧
      u.host.ready = s.host.ready ∧ u.host.done = s.host.done ∧ u.host.hellos = s.host.hellos ∧ u.ret.x.edits = s.ret.x.edits ∧ u.ret.x.changes = s.ret.x.changes ∧ u.mode = .run ∧ u.role = .solo ∧ u.tick.n = s.tick.n ∧
      u.tick.phase = .o ∧ u.power.dorm = none ∧ u.pair.swap = none ∧ ∀ i : Fin 8, u.ret.j.hdrs[i] = s.ret.j.hdrs[i]

/-- Requests wait for Phase O, which executes them (R535, R536). -/
def Obligations.RequestsWaitAndRunInPhaseO : Prop := Stated.RequestsWaitForPhaseO ∧ Stated.PhaseOServesRequests

/-- Every step of a start completes (R226 steps 3, 4 and 6 to 9, R211, R225, R229, R369): BOOT_RECORD_CHOOSE with a valid boot record goes on to the executive,
EXEC_VERIFY with one that agrees to the program, EXEC_REMEASURE with one that agrees to the boot records, PROGRAM_LOAD with an image that may run and no hold to the
recovery, RECOVER from sound retained state of the same program, and of a cold start that is marked, to the role, and ROLE_AT_START without a partner to the first
edge. -/
def Obligations.StartStepsComplete : Prop :=
  ∀ (s : State) (g : Image) (peer9 : Bool) (at_ : Nat),
    let u := setNow s at_
    let goes := fun (i : Instr) (q : StartStep) => ∃ t, exec i s = .next t ∧ t.start.step = q ∧ t.mode = s.mode ∧ t.tick.now = max s.now at_
    (s.start.step = .boot → carrierOk s = true → bootValid (bootCopy s 0) = true ∨ bootValid (bootCopy s 1) = true → s.start.kind ≠ 3 → s.start.kind ≠ 4 →
      goes (.bootRecordChoose true at_) .exec) ∧
    (s.start.step = .exec → s.start.kind ≠ 3 → execOk s s.upd.active = true → goes (.execVerify true at_) .program) ∧
    (s.start.step = .exec → s.start.kind = 3 → goes (.execRemeasure true at_) .boot) ∧
    (s.start.step = .program → measOk u u.upd.active (fun _ => true) = true → (ownerOf u u.upd.active).isSome = true →
      admitOk u (parseImage u u.upd.active) = true → s.ret.j.hold = false → goes (.programLoad true at_) .recover) ∧
    (s.start.step = .recover → s.prog = some g → s.start.cold = none → s.ret.j.cold = false → s.ret.badHome = [] → s.ret.badJourn = [] → s.ret.badLog = [] →
      (∀ d ∈ s.ret.dir, d.progid8 = padTo 8 (g.progid.take 8)) → (∃ d ∈ s.ret.dir, d.st = .applied ∨ d.st = .sealed ∧ d.body.isSome = true) →
      goes (.recover at_) .role) ∧
    (s.start.step = .recover → s.prog = some g → s.start.cold.isSome = true → goes (.recover at_) .role) ∧
    (s.start.step = .role → s.join.st ≠ 1 → sOn s = false → goes (.roleAtStart peer9 at_) .ready)

/-- A happening at the next edge or after it, which arrives before that edge has been produced, belongs to the tick that begins there (R51, R54): until then it
changes nothing but the list of what waits for that tick (the model's form of it, log 2). -/
def Obligations.HappeningsWaitForTheirTick : Prop :=
  ∀ (s : State) (at_ : Nat),
    (beyondEdge s at_ = true →
      (∀ k a b z, exec (.encTransition k a b z at_) s = .next (holdLate s (.encTransition k a b z at_))) ∧
      (∀ k cyc, exec (.encIndex k at_ cyc) s = .next (holdLate s (.encIndex k at_ cyc))) ∧
      (∀ k line, exec (.encLineBreak k line at_) s = .next (holdLate s (.encLineBreak k line at_)) ∧
        exec (.encLineReturn k line at_) s = .next (holdLate s (.encLineReturn k line at_))) ∧
      (∀ k start data nE nW crc, exec (.serialSample k start data nE nW crc at_) s = .next (holdLate s (.serialSample k start data nE nW crc at_))) ∧
      (∀ m f cyc, exec (.canFrameReceive m f at_ cyc) s = .next (holdLate s (.canFrameReceive m f at_ cyc))) ∧
      (∀ m i, exec (.canFrameSent m i at_) s = .next (holdLate s (.canFrameSent m i at_))) ∧
      (∀ m tec rec, exec (.busError m tec rec at_) s = .next (holdLate s (.busError m tec rec at_))) ∧
      (∀ m, exec (.busOffRecovered m at_) s = .next (holdLate s (.busOffRecovered m at_))) ∧
      (∀ i v, exec (.rawLevelChange i v at_) s = .next (holdLate s (.rawLevelChange i v at_))) ∧
      (∀ i, exec (.wireBreak i at_) s = .next (holdLate s (.wireBreak i at_)) ∧ exec (.wireBreakClear i at_) s = .next (holdLate s (.wireBreakClear i at_))) ∧
      ∀ i, exec (.outputOverload i at_) s = .next (holdLate s (.outputOverload i at_)) ∧ exec (.openLoad i at_) s = .next (holdLate s (.openLoad i at_)) ∧
        exec (.openLoadClear i at_) s = .next (holdLate s (.openLoadClear i at_))) ∧
    (∀ i cyc, beyondEdge s (diDue s i) = true → exec (.diFilterChange i cyc) s = .next (holdLate s (.diFilterChange i cyc))) ∧
    ∀ l c, s.tick.late = l ++ [c] → lateEvents s = lateEvent (lateEvents { s with tick := { s.tick with late := l } }) c
end

