-- ==== Sys2Proof/Laws/Cells.lean ====
section
/-! SUPPORT. Laws of the byte stores and of the lists of parameter words: a read after a write, and the canonical form. -/

namespace Sys2Proof.Machine

/-! ## Byte stores -/

@[simp] theorem cellGet_nil (d : Byte) (x : Nat) : cellGet d [] x = d := rfl

theorem cellGet_cons (d : Byte) (c : Host.Cell) (m : List Host.Cell) (x : Nat) :
    cellGet d (c :: m) x = if c.1 = x then c.2 else cellGet d m x := rfl

@[simp] theorem cellWrite_nil (d : Byte) (m : List Host.Cell) (a : Nat) : cellWrite d m a [] = m := rfl

theorem cellWrite_cons (d : Byte) (m : List Host.Cell) (a : Nat) (b : Byte) (r : List Byte) :
    cellWrite d m a (b :: r) = cellWrite d (cellSet d m a b) (a + 1) r := rfl

theorem cellsRise_cons (d : Byte) (lo : Nat) (c : Host.Cell) (m : List Host.Cell) :
    cellsRise d lo (c :: m) = true ↔ lo ≤ c.1 ∧ c.2 ≠ d ∧ cellsRise d (c.1 + 1) m = true := by
  obtain ⟨a, v⟩ := c
  simp [cellsRise, and_assoc]

/-- A lower bound may be lowered. -/
theorem cellsRise_mono {d : Byte} {lo lo' : Nat} {m : List Host.Cell} (h : lo ≤ lo') (hm : cellsRise d lo' m = true) :
    cellsRise d lo m = true := by
  cases m with
  | nil => rfl
  | cons c r => rw [cellsRise_cons] at *; exact ⟨by omega, hm.2⟩

/-- Below its first address a store reads as unlisted. -/
theorem cellGet_below {d : Byte} {lo : Nat} {m : List Host.Cell} (hm : cellsRise d lo m = true) {x : Nat} (hx : x < lo) :
    cellGet d m x = d := by
  induction m generalizing lo with
  | nil => rfl
  | cons c r ih =>
    rw [cellsRise_cons] at hm
    rw [cellGet_cons, if_neg (by omega)]
    exact ih hm.2.2 (by omega)

/-- A write keeps the canonical form. -/
theorem cellsRise_cellSet {d : Byte} {lo : Nat} {m : List Host.Cell} (hm : cellsRise d lo m = true) {x : Nat} (hx : lo ≤ x) (v : Byte) :
    cellsRise d lo (cellSet d m x v) = true := by
  induction m generalizing lo with
  | nil => unfold cellSet; split <;> simp_all [cellsRise]
  | cons c r ih =>
    obtain ⟨a, w⟩ := c
    rw [cellsRise_cons] at hm
    obtain ⟨h1, h2, h3⟩ := hm
    unfold cellSet
    split
    · split
      · exact (cellsRise_cons ..).2 ⟨h1, h2, h3⟩
      · rename_i hxa hv
        exact (cellsRise_cons ..).2 ⟨hx, hv, (cellsRise_cons ..).2 ⟨hxa, h2, h3⟩⟩
    · split
      · split
        · exact cellsRise_mono (by simp at h1; omega) h3
        · rename_i hxa hv
          subst hxa
          exact (cellsRise_cons ..).2 ⟨hx, hv, h3⟩
      · exact (cellsRise_cons ..).2 ⟨h1, h2, ih h3 (by simp; omega)⟩

theorem cellsWf_cellSet {d : Byte} {m : List Host.Cell} (hm : cellsWf d m = true) (x : Nat) (v : Byte) :
    cellsWf d (cellSet d m x v) = true := cellsRise_cellSet hm (Nat.zero_le x) v

/-- A read after a write: the byte written at its address, and every other byte as before. -/
theorem cellGet_cellSet_rise {d : Byte} {lo : Nat} {m : List Host.Cell} (hm : cellsRise d lo m = true) (x y : Nat) (v : Byte) :
    cellGet d (cellSet d m x v) y = if x = y then v else cellGet d m y := by
  induction m generalizing lo with
  | nil => unfold cellSet; split <;> simp_all [cellGet]
  | cons c r ih =>
    obtain ⟨a, w⟩ := c
    rw [cellsRise_cons] at hm
    obtain ⟨h1, h2, h3⟩ := hm
    unfold cellSet
    split
    · rename_i hxa
      split
      · rename_i hv
        by_cases hy : x = y
        · subst hy
          rw [if_pos rfl, cellGet_cons, if_neg (by simp; omega), cellGet_below h3 (by simp; omega), hv]
        · simp [hy]
      · simp [cellGet_cons]
    · split
      · rename_i hxa
        subst hxa
        split
        · rename_i hv
          by_cases hy : x = y
          · subst hy
            rw [if_pos rfl, cellGet_below h3 (by simp), hv]
          · simp [hy, cellGet_cons]
        · by_cases hy : x = y <;> simp [hy, cellGet_cons]
      · rename_i hxa hne
        rw [cellGet_cons, cellGet_cons, ih h3]
        by_cases ha : a = y
        · subst ha; simp [hne]
        · simp [ha]

theorem cellGet_cellSet {d : Byte} {m : List Host.Cell} (hm : cellsWf d m = true) (x y : Nat) (v : Byte) :
    cellGet d (cellSet d m x v) y = if x = y then v else cellGet d m y := cellGet_cellSet_rise hm x y v

theorem cellsWf_cellWrite {d : Byte} {m : List Host.Cell} (hm : cellsWf d m = true) (a : Nat) (b : List Byte) :
    cellsWf d (cellWrite d m a b) = true := by
  induction b generalizing m a with
  | nil => exact hm
  | cons v r ih => exact ih (cellsWf_cellSet hm a v) (a + 1)

/-- A read after a write of several bytes: the bytes written at their addresses, and every other byte as before. -/
theorem cellGet_cellWrite {d : Byte} {m : List Host.Cell} (hm : cellsWf d m = true) (a : Nat) (b : List Byte) (y : Nat) :
    cellGet d (cellWrite d m a b) y = if a ≤ y ∧ y < a + b.length then b.getD (y - a) 0 else cellGet d m y := by
  induction b generalizing m a with
  | nil => simp
  | cons v r ih =>
    rw [cellWrite_cons, ih (cellsWf_cellSet hm a v), cellGet_cellSet hm]
    by_cases h : a + 1 ≤ y ∧ y < a + 1 + r.length
    · rw [if_pos h, if_pos (by simp; omega)]
      obtain ⟨k, rfl⟩ : ∃ k, y = a + 1 + k := ⟨y - (a + 1), by omega⟩
      rw [show a + 1 + k - (a + 1) = k by omega, show a + 1 + k - a = k + 1 by omega]
      simp
    · rw [if_neg h]
      by_cases hy : a = y
      · subst hy; simp
      · rw [if_neg hy, if_neg (by simp; omega)]

/-- Outside the bytes written nothing changes. -/
theorem cellGet_cellWrite_off {d : Byte} {m : List Host.Cell} (hm : cellsWf d m = true) {a : Nat} {b : List Byte} {y : Nat}
    (h : y < a ∨ a + b.length ≤ y) : cellGet d (cellWrite d m a b) y = cellGet d m y := by
  rw [cellGet_cellWrite hm, if_neg (by omega)]

/-- The bytes written read back. -/
theorem cellBytes_cellWrite {d : Byte} {m : List Host.Cell} (hm : cellsWf d m = true) (a : Nat) (b : List Byte) :
    cellBytes d (cellWrite d m a b) a b.length = b := by
  apply List.ext_getElem
  · simp [cellBytes]
  · intro i h1 h2
    simp [cellBytes, cellGet_cellWrite hm, h2]

theorem cellsRise_filter {d : Byte} {lo : Nat} {m : List Host.Cell} (p : Nat → Bool) (hm : cellsRise d lo m = true) :
    cellsRise d lo (cellFilter p m) = true := by
  induction m generalizing lo with
  | nil => rfl
  | cons c r ih =>
    rw [cellsRise_cons] at hm
    unfold cellFilter
    rw [List.filter_cons]
    split
    · exact (cellsRise_cons ..).2 ⟨hm.1, hm.2.1, ih hm.2.2⟩
    · exact ih (cellsRise_mono (by omega) hm.2.2)

theorem cellsWf_cellFilter {d : Byte} {m : List Host.Cell} (p : Nat → Bool) (hm : cellsWf d m = true) :
    cellsWf d (cellFilter p m) = true := cellsRise_filter p hm

/-! ## Lists of parameter words -/

/-- A key that no entry has is not listed. -/
theorem kvGet_none {l : List (Nat × Word)} {k : Nat} (h : ∀ e ∈ l, e.1 ≠ k) : kvGet l k = none := by
  induction l with
  | nil => rfl
  | cons e r ih =>
    obtain ⟨a, v⟩ := e
    simp only [List.mem_cons, forall_eq_or_imp] at h
    simp [kvGet, h.1, ih h.2]

theorem kvGet_kvSet_self {d : Word} {l : List (Nat × Word)} (hl : l.Pairwise fun a b => a.1 < b.1) (k : Nat) (v : Word) :
    (kvGet (kvSet d l k v) k).getD d = v := by
  induction l with
  | nil => unfold kvSet; split <;> simp_all [kvGet]
  | cons e r ih =>
    obtain ⟨a, w⟩ := e
    rw [List.pairwise_cons] at hl
    have hn : a ≤ k → ∀ h : k ≤ a, kvGet r k = none := fun _ _ => kvGet_none fun e he => by have := hl.1 e he; simp at this; omega
    unfold kvSet
    split
    · rename_i hk
      split
      · rename_i hv
        rw [kvGet_none]
        · simp [hv]
        · intro e he
          rcases List.mem_cons.1 he with rfl | he
          · simp; omega
          · have := hl.1 e he; simp at this; omega
      · simp [kvGet]
    · split
      · rename_i hk
        subst hk
        split
        · rename_i hv; rw [hn (le_refl _) (le_refl _)]; simp [hv]
        · simp [kvGet]
      · rename_i h1 h2
        rw [kvGet, if_neg (by omega)]
        exact ih hl.2

/-- A value other than what an unlisted key reads as is read back whatever the list. -/
theorem kvGet_kvSet_ne {d : Word} (l : List (Nat × Word)) (k : Nat) {v : Word} (h : v ≠ d) : kvGet (kvSet d l k v) k = some v := by
  induction l with
  | nil => simp [kvSet, h, kvGet]
  | cons e r ih =>
    obtain ⟨a, w⟩ := e
    unfold kvSet
    rw [if_neg h, if_neg h]
    split
    · simp [kvGet]
    · split
      · simp [kvGet]
      · rename_i h2; simp [kvGet, ih, Ne.symm h2]

theorem kvGet_kvSet_other {d : Word} (l : List (Nat × Word)) {k q : Nat} (h : k ≠ q) (v : Word) :
    kvGet (kvSet d l k v) q = kvGet l q := by
  induction l with
  | nil => unfold kvSet; split <;> simp [kvGet, h]
  | cons e r ih =>
    obtain ⟨a, w⟩ := e
    unfold kvSet
    split
    · split <;> simp [kvGet, h]
    · split
      · rename_i hk
        subst hk
        split <;> simp [kvGet, h]
      · simp [kvGet, ih]

theorem mem_kvSet {d : Word} {l : List (Nat × Word)} {k : Nat} {v : Word} {e : Nat × Word} (h : e ∈ kvSet d l k v) :
    e = (k, v) ∨ e ∈ l := by
  induction l with
  | nil => unfold kvSet at h; split at h <;> simp_all
  | cons c r ih =>
    obtain ⟨a, w⟩ := c
    unfold kvSet at h
    split at h
    · split at h <;> simp_all
    · split at h
      · split at h <;> simp_all ; tauto
      · rcases List.mem_cons.1 h with h | h
        · simp [h]
        · rcases ih h with h | h <;> simp [h]

/-- Listing a value keeps the keys rising. -/
theorem pairwise_kvSet {d : Word} {l : List (Nat × Word)} (hl : l.Pairwise fun a b => a.1 < b.1) (k : Nat) (v : Word) :
    (kvSet d l k v).Pairwise fun a b => a.1 < b.1 := by
  induction l with
  | nil => unfold kvSet; split <;> simp
  | cons e r ih =>
    obtain ⟨a, w⟩ := e
    have hl' := List.pairwise_cons.1 hl
    unfold kvSet
    split
    · rename_i hk
      split
      · exact hl
      · refine List.pairwise_cons.2 ⟨fun e he => ?_, hl⟩
        rcases List.mem_cons.1 he with rfl | he
        · exact hk
        · exact lt_trans hk (hl'.1 e he)
    · split
      · rename_i hk
        subst hk
        split
        · exact hl'.2
        · exact List.pairwise_cons.2 ⟨hl'.1, hl'.2⟩
      · rename_i h1 h2
        refine List.pairwise_cons.2 ⟨fun e he => ?_, ih hl'.2⟩
        rcases mem_kvSet he with rfl | he
        · simp; omega
        · exact hl'.1 e he

end Sys2Proof.Machine
end

