-- ==== Sys2Proof/Laws/State.lean ====
section
/-! SUPPORT. What each update of the state leaves: one law per field and update. -/

namespace Sys2Proof.Machine

variable (s : State)

/-! ## updEvr -/

section updEvr
variable (f : Evr → Evr)
@[simp] theorem State.updEvr_evr : (s.updEvr f).evr = f s.evr := rfl
@[simp] theorem State.updEvr_pending : (s.updEvr f).pending = s.pending := rfl
@[simp] theorem State.updEvr_tick : (s.updEvr f).tick = s.tick := rfl
@[simp] theorem State.updEvr_mode : (s.updEvr f).mode = s.mode := rfl
@[simp] theorem State.updEvr_role : (s.updEvr f).role = s.role := rfl
@[simp] theorem State.updEvr_par : (s.updEvr f).par = s.par := rfl
@[simp] theorem State.updEvr_cores : (s.updEvr f).cores = s.cores := rfl
@[simp] theorem State.updEvr_sv : (s.updEvr f).sv = s.sv := rfl
@[simp] theorem State.updEvr_mem : (s.updEvr f).mem = s.mem := rfl
@[simp] theorem State.updEvr_prog : (s.updEvr f).prog = s.prog := rfl
@[simp] theorem State.updEvr_ret : (s.updEvr f).ret = s.ret := rfl
@[simp] theorem State.updEvr_power : (s.updEvr f).power = s.power := rfl
@[simp] theorem State.updEvr_start : (s.updEvr f).start = s.start := rfl
@[simp] theorem State.updEvr_links : (s.updEvr f).links = s.links := rfl
@[simp] theorem State.updEvr_enc : (s.updEvr f).enc = s.enc := rfl
@[simp] theorem State.updEvr_loop : (s.updEvr f).loop = s.loop := rfl
@[simp] theorem State.updEvr_bus : (s.updEvr f).bus = s.bus := rfl
@[simp] theorem State.updEvr_dio : (s.updEvr f).dio = s.dio := rfl
@[simp] theorem State.updEvr_panel : (s.updEvr f).panel = s.panel := rfl
@[simp] theorem State.updEvr_rtc : (s.updEvr f).rtc = s.rtc := rfl
@[simp] theorem State.updEvr_pair : (s.updEvr f).pair = s.pair := rfl
@[simp] theorem State.updEvr_join : (s.updEvr f).join = s.join := rfl
@[simp] theorem State.updEvr_wdg : (s.updEvr f).wdg = s.wdg := rfl
@[simp] theorem State.updEvr_host : (s.updEvr f).host = s.host := rfl
@[simp] theorem State.updEvr_upd : (s.updEvr f).upd = s.upd := rfl
@[simp] theorem State.updEvr_trust : (s.updEvr f).trust = s.trust := rfl
@[simp] theorem State.updEvr_exch : (s.updEvr f).exch = s.exch := rfl
@[simp] theorem State.updEvr_out : (s.updEvr f).out = s.out := rfl
@[simp] theorem State.updEvr_free : (s.updEvr f).free = s.free := rfl
end updEvr

/-! ## updPair -/

section updPair
variable (f : Pair → Pair)
@[simp] theorem State.updPair_pair : (s.updPair f).pair = f s.pair := rfl
@[simp] theorem State.updPair_pending : (s.updPair f).pending = s.pending := rfl
@[simp] theorem State.updPair_tick : (s.updPair f).tick = s.tick := rfl
@[simp] theorem State.updPair_mode : (s.updPair f).mode = s.mode := rfl
@[simp] theorem State.updPair_role : (s.updPair f).role = s.role := rfl
@[simp] theorem State.updPair_par : (s.updPair f).par = s.par := rfl
@[simp] theorem State.updPair_cores : (s.updPair f).cores = s.cores := rfl
@[simp] theorem State.updPair_sv : (s.updPair f).sv = s.sv := rfl
@[simp] theorem State.updPair_mem : (s.updPair f).mem = s.mem := rfl
@[simp] theorem State.updPair_prog : (s.updPair f).prog = s.prog := rfl
@[simp] theorem State.updPair_ret : (s.updPair f).ret = s.ret := rfl
@[simp] theorem State.updPair_power : (s.updPair f).power = s.power := rfl
@[simp] theorem State.updPair_start : (s.updPair f).start = s.start := rfl
@[simp] theorem State.updPair_links : (s.updPair f).links = s.links := rfl
@[simp] theorem State.updPair_enc : (s.updPair f).enc = s.enc := rfl
@[simp] theorem State.updPair_loop : (s.updPair f).loop = s.loop := rfl
@[simp] theorem State.updPair_bus : (s.updPair f).bus = s.bus := rfl
@[simp] theorem State.updPair_dio : (s.updPair f).dio = s.dio := rfl
@[simp] theorem State.updPair_panel : (s.updPair f).panel = s.panel := rfl
@[simp] theorem State.updPair_rtc : (s.updPair f).rtc = s.rtc := rfl
@[simp] theorem State.updPair_join : (s.updPair f).join = s.join := rfl
@[simp] theorem State.updPair_evr : (s.updPair f).evr = s.evr := rfl
@[simp] theorem State.updPair_wdg : (s.updPair f).wdg = s.wdg := rfl
@[simp] theorem State.updPair_host : (s.updPair f).host = s.host := rfl
@[simp] theorem State.updPair_upd : (s.updPair f).upd = s.upd := rfl
@[simp] theorem State.updPair_trust : (s.updPair f).trust = s.trust := rfl
@[simp] theorem State.updPair_exch : (s.updPair f).exch = s.exch := rfl
@[simp] theorem State.updPair_out : (s.updPair f).out = s.out := rfl
@[simp] theorem State.updPair_free : (s.updPair f).free = s.free := rfl
end updPair

/-! ## updJoin -/

section updJoin
variable (f : Join → Join)
@[simp] theorem State.updJoin_join : (s.updJoin f).join = f s.join := rfl
@[simp] theorem State.updJoin_pending : (s.updJoin f).pending = s.pending := rfl
@[simp] theorem State.updJoin_tick : (s.updJoin f).tick = s.tick := rfl
@[simp] theorem State.updJoin_mode : (s.updJoin f).mode = s.mode := rfl
@[simp] theorem State.updJoin_role : (s.updJoin f).role = s.role := rfl
@[simp] theorem State.updJoin_par : (s.updJoin f).par = s.par := rfl
@[simp] theorem State.updJoin_cores : (s.updJoin f).cores = s.cores := rfl
@[simp] theorem State.updJoin_sv : (s.updJoin f).sv = s.sv := rfl
@[simp] theorem State.updJoin_mem : (s.updJoin f).mem = s.mem := rfl
@[simp] theorem State.updJoin_prog : (s.updJoin f).prog = s.prog := rfl
@[simp] theorem State.updJoin_ret : (s.updJoin f).ret = s.ret := rfl
@[simp] theorem State.updJoin_power : (s.updJoin f).power = s.power := rfl
@[simp] theorem State.updJoin_start : (s.updJoin f).start = s.start := rfl
@[simp] theorem State.updJoin_links : (s.updJoin f).links = s.links := rfl
@[simp] theorem State.updJoin_enc : (s.updJoin f).enc = s.enc := rfl
@[simp] theorem State.updJoin_loop : (s.updJoin f).loop = s.loop := rfl
@[simp] theorem State.updJoin_bus : (s.updJoin f).bus = s.bus := rfl
@[simp] theorem State.updJoin_dio : (s.updJoin f).dio = s.dio := rfl
@[simp] theorem State.updJoin_panel : (s.updJoin f).panel = s.panel := rfl
@[simp] theorem State.updJoin_rtc : (s.updJoin f).rtc = s.rtc := rfl
@[simp] theorem State.updJoin_pair : (s.updJoin f).pair = s.pair := rfl
@[simp] theorem State.updJoin_evr : (s.updJoin f).evr = s.evr := rfl
@[simp] theorem State.updJoin_wdg : (s.updJoin f).wdg = s.wdg := rfl
@[simp] theorem State.updJoin_host : (s.updJoin f).host = s.host := rfl
@[simp] theorem State.updJoin_upd : (s.updJoin f).upd = s.upd := rfl
@[simp] theorem State.updJoin_trust : (s.updJoin f).trust = s.trust := rfl
@[simp] theorem State.updJoin_exch : (s.updJoin f).exch = s.exch := rfl
@[simp] theorem State.updJoin_out : (s.updJoin f).out = s.out := rfl
@[simp] theorem State.updJoin_free : (s.updJoin f).free = s.free := rfl
end updJoin

/-! ## updExch -/

section updExch
variable (f : Exch → Exch)
@[simp] theorem State.updExch_exch : (s.updExch f).exch = f s.exch := rfl
@[simp] theorem State.updExch_pending : (s.updExch f).pending = s.pending := rfl
@[simp] theorem State.updExch_tick : (s.updExch f).tick = s.tick := rfl
@[simp] theorem State.updExch_mode : (s.updExch f).mode = s.mode := rfl
@[simp] theorem State.updExch_role : (s.updExch f).role = s.role := rfl
@[simp] theorem State.updExch_par : (s.updExch f).par = s.par := rfl
@[simp] theorem State.updExch_cores : (s.updExch f).cores = s.cores := rfl
@[simp] theorem State.updExch_sv : (s.updExch f).sv = s.sv := rfl
@[simp] theorem State.updExch_mem : (s.updExch f).mem = s.mem := rfl
@[simp] theorem State.updExch_prog : (s.updExch f).prog = s.prog := rfl
@[simp] theorem State.updExch_ret : (s.updExch f).ret = s.ret := rfl
@[simp] theorem State.updExch_power : (s.updExch f).power = s.power := rfl
@[simp] theorem State.updExch_start : (s.updExch f).start = s.start := rfl
@[simp] theorem State.updExch_links : (s.updExch f).links = s.links := rfl
@[simp] theorem State.updExch_enc : (s.updExch f).enc = s.enc := rfl
@[simp] theorem State.updExch_loop : (s.updExch f).loop = s.loop := rfl
@[simp] theorem State.updExch_bus : (s.updExch f).bus = s.bus := rfl
@[simp] theorem State.updExch_dio : (s.updExch f).dio = s.dio := rfl
@[simp] theorem State.updExch_panel : (s.updExch f).panel = s.panel := rfl
@[simp] theorem State.updExch_rtc : (s.updExch f).rtc = s.rtc := rfl
@[simp] theorem State.updExch_pair : (s.updExch f).pair = s.pair := rfl
@[simp] theorem State.updExch_join : (s.updExch f).join = s.join := rfl
@[simp] theorem State.updExch_evr : (s.updExch f).evr = s.evr := rfl
@[simp] theorem State.updExch_wdg : (s.updExch f).wdg = s.wdg := rfl
@[simp] theorem State.updExch_host : (s.updExch f).host = s.host := rfl
@[simp] theorem State.updExch_upd : (s.updExch f).upd = s.upd := rfl
@[simp] theorem State.updExch_trust : (s.updExch f).trust = s.trust := rfl
@[simp] theorem State.updExch_out : (s.updExch f).out = s.out := rfl
@[simp] theorem State.updExch_free : (s.updExch f).free = s.free := rfl
end updExch

/-! ## updMem -/

section updMem
variable (f : Memory → Memory)
@[simp] theorem State.updMem_mem : (s.updMem f).mem = f s.mem := rfl
@[simp] theorem State.updMem_pending : (s.updMem f).pending = s.pending := rfl
@[simp] theorem State.updMem_tick : (s.updMem f).tick = s.tick := rfl
@[simp] theorem State.updMem_mode : (s.updMem f).mode = s.mode := rfl
@[simp] theorem State.updMem_role : (s.updMem f).role = s.role := rfl
@[simp] theorem State.updMem_par : (s.updMem f).par = s.par := rfl
@[simp] theorem State.updMem_cores : (s.updMem f).cores = s.cores := rfl
@[simp] theorem State.updMem_sv : (s.updMem f).sv = s.sv := rfl
@[simp] theorem State.updMem_prog : (s.updMem f).prog = s.prog := rfl
@[simp] theorem State.updMem_ret : (s.updMem f).ret = s.ret := rfl
@[simp] theorem State.updMem_power : (s.updMem f).power = s.power := rfl
@[simp] theorem State.updMem_start : (s.updMem f).start = s.start := rfl
@[simp] theorem State.updMem_links : (s.updMem f).links = s.links := rfl
@[simp] theorem State.updMem_enc : (s.updMem f).enc = s.enc := rfl
@[simp] theorem State.updMem_loop : (s.updMem f).loop = s.loop := rfl
@[simp] theorem State.updMem_bus : (s.updMem f).bus = s.bus := rfl
@[simp] theorem State.updMem_dio : (s.updMem f).dio = s.dio := rfl
@[simp] theorem State.updMem_panel : (s.updMem f).panel = s.panel := rfl
@[simp] theorem State.updMem_rtc : (s.updMem f).rtc = s.rtc := rfl
@[simp] theorem State.updMem_pair : (s.updMem f).pair = s.pair := rfl
@[simp] theorem State.updMem_join : (s.updMem f).join = s.join := rfl
@[simp] theorem State.updMem_evr : (s.updMem f).evr = s.evr := rfl
@[simp] theorem State.updMem_wdg : (s.updMem f).wdg = s.wdg := rfl
@[simp] theorem State.updMem_host : (s.updMem f).host = s.host := rfl
@[simp] theorem State.updMem_upd : (s.updMem f).upd = s.upd := rfl
@[simp] theorem State.updMem_trust : (s.updMem f).trust = s.trust := rfl
@[simp] theorem State.updMem_exch : (s.updMem f).exch = s.exch := rfl
@[simp] theorem State.updMem_out : (s.updMem f).out = s.out := rfl
@[simp] theorem State.updMem_free : (s.updMem f).free = s.free := rfl
end updMem

/-! ## updPanel -/

section updPanel
variable (f : Panel → Panel)
@[simp] theorem State.updPanel_panel : (s.updPanel f).panel = f s.panel := rfl
@[simp] theorem State.updPanel_pending : (s.updPanel f).pending = s.pending := rfl
@[simp] theorem State.updPanel_tick : (s.updPanel f).tick = s.tick := rfl
@[simp] theorem State.updPanel_mode : (s.updPanel f).mode = s.mode := rfl
@[simp] theorem State.updPanel_role : (s.updPanel f).role = s.role := rfl
@[simp] theorem State.updPanel_par : (s.updPanel f).par = s.par := rfl
@[simp] theorem State.updPanel_cores : (s.updPanel f).cores = s.cores := rfl
@[simp] theorem State.updPanel_sv : (s.updPanel f).sv = s.sv := rfl
@[simp] theorem State.updPanel_mem : (s.updPanel f).mem = s.mem := rfl
@[simp] theorem State.updPanel_prog : (s.updPanel f).prog = s.prog := rfl
@[simp] theorem State.updPanel_ret : (s.updPanel f).ret = s.ret := rfl
@[simp] theorem State.updPanel_power : (s.updPanel f).power = s.power := rfl
@[simp] theorem State.updPanel_start : (s.updPanel f).start = s.start := rfl
@[simp] theorem State.updPanel_links : (s.updPanel f).links = s.links := rfl
@[simp] theorem State.updPanel_enc : (s.updPanel f).enc = s.enc := rfl
@[simp] theorem State.updPanel_loop : (s.updPanel f).loop = s.loop := rfl
@[simp] theorem State.updPanel_bus : (s.updPanel f).bus = s.bus := rfl
@[simp] theorem State.updPanel_dio : (s.updPanel f).dio = s.dio := rfl
@[simp] theorem State.updPanel_rtc : (s.updPanel f).rtc = s.rtc := rfl
@[simp] theorem State.updPanel_pair : (s.updPanel f).pair = s.pair := rfl
@[simp] theorem State.updPanel_join : (s.updPanel f).join = s.join := rfl
@[simp] theorem State.updPanel_evr : (s.updPanel f).evr = s.evr := rfl
@[simp] theorem State.updPanel_wdg : (s.updPanel f).wdg = s.wdg := rfl
@[simp] theorem State.updPanel_host : (s.updPanel f).host = s.host := rfl
@[simp] theorem State.updPanel_upd : (s.updPanel f).upd = s.upd := rfl
@[simp] theorem State.updPanel_trust : (s.updPanel f).trust = s.trust := rfl
@[simp] theorem State.updPanel_exch : (s.updPanel f).exch = s.exch := rfl
@[simp] theorem State.updPanel_out : (s.updPanel f).out = s.out := rfl
@[simp] theorem State.updPanel_free : (s.updPanel f).free = s.free := rfl
end updPanel

/-! ## updRet -/

section updRet
variable (f : Ret → Ret)
@[simp] theorem State.updRet_ret : (s.updRet f).ret = f s.ret := rfl
@[simp] theorem State.updRet_pending : (s.updRet f).pending = s.pending := rfl
@[simp] theorem State.updRet_tick : (s.updRet f).tick = s.tick := rfl
@[simp] theorem State.updRet_mode : (s.updRet f).mode = s.mode := rfl
@[simp] theorem State.updRet_role : (s.updRet f).role = s.role := rfl
@[simp] theorem State.updRet_par : (s.updRet f).par = s.par := rfl
@[simp] theorem State.updRet_cores : (s.updRet f).cores = s.cores := rfl
@[simp] theorem State.updRet_sv : (s.updRet f).sv = s.sv := rfl
@[simp] theorem State.updRet_mem : (s.updRet f).mem = s.mem := rfl
@[simp] theorem State.updRet_prog : (s.updRet f).prog = s.prog := rfl
@[simp] theorem State.updRet_power : (s.updRet f).power = s.power := rfl
@[simp] theorem State.updRet_start : (s.updRet f).start = s.start := rfl
@[simp] theorem State.updRet_links : (s.updRet f).links = s.links := rfl
@[simp] theorem State.updRet_enc : (s.updRet f).enc = s.enc := rfl
@[simp] theorem State.updRet_loop : (s.updRet f).loop = s.loop := rfl
@[simp] theorem State.updRet_bus : (s.updRet f).bus = s.bus := rfl
@[simp] theorem State.updRet_dio : (s.updRet f).dio = s.dio := rfl
@[simp] theorem State.updRet_panel : (s.updRet f).panel = s.panel := rfl
@[simp] theorem State.updRet_rtc : (s.updRet f).rtc = s.rtc := rfl
@[simp] theorem State.updRet_pair : (s.updRet f).pair = s.pair := rfl
@[simp] theorem State.updRet_join : (s.updRet f).join = s.join := rfl
@[simp] theorem State.updRet_evr : (s.updRet f).evr = s.evr := rfl
@[simp] theorem State.updRet_wdg : (s.updRet f).wdg = s.wdg := rfl
@[simp] theorem State.updRet_host : (s.updRet f).host = s.host := rfl
@[simp] theorem State.updRet_upd : (s.updRet f).upd = s.upd := rfl
@[simp] theorem State.updRet_trust : (s.updRet f).trust = s.trust := rfl
@[simp] theorem State.updRet_exch : (s.updRet f).exch = s.exch := rfl
@[simp] theorem State.updRet_out : (s.updRet f).out = s.out := rfl
@[simp] theorem State.updRet_free : (s.updRet f).free = s.free := rfl
end updRet

/-! ## updRtc -/

section updRtc
variable (f : Rtc → Rtc)
@[simp] theorem State.updRtc_rtc : (s.updRtc f).rtc = f s.rtc := rfl
@[simp] theorem State.updRtc_pending : (s.updRtc f).pending = s.pending := rfl
@[simp] theorem State.updRtc_tick : (s.updRtc f).tick = s.tick := rfl
@[simp] theorem State.updRtc_mode : (s.updRtc f).mode = s.mode := rfl
@[simp] theorem State.updRtc_role : (s.updRtc f).role = s.role := rfl
@[simp] theorem State.updRtc_par : (s.updRtc f).par = s.par := rfl
@[simp] theorem State.updRtc_cores : (s.updRtc f).cores = s.cores := rfl
@[simp] theorem State.updRtc_sv : (s.updRtc f).sv = s.sv := rfl
@[simp] theorem State.updRtc_mem : (s.updRtc f).mem = s.mem := rfl
@[simp] theorem State.updRtc_prog : (s.updRtc f).prog = s.prog := rfl
@[simp] theorem State.updRtc_ret : (s.updRtc f).ret = s.ret := rfl
@[simp] theorem State.updRtc_power : (s.updRtc f).power = s.power := rfl
@[simp] theorem State.updRtc_start : (s.updRtc f).start = s.start := rfl
@[simp] theorem State.updRtc_links : (s.updRtc f).links = s.links := rfl
@[simp] theorem State.updRtc_enc : (s.updRtc f).enc = s.enc := rfl
@[simp] theorem State.updRtc_loop : (s.updRtc f).loop = s.loop := rfl
@[simp] theorem State.updRtc_bus : (s.updRtc f).bus = s.bus := rfl
@[simp] theorem State.updRtc_dio : (s.updRtc f).dio = s.dio := rfl
@[simp] theorem State.updRtc_panel : (s.updRtc f).panel = s.panel := rfl
@[simp] theorem State.updRtc_pair : (s.updRtc f).pair = s.pair := rfl
@[simp] theorem State.updRtc_join : (s.updRtc f).join = s.join := rfl
@[simp] theorem State.updRtc_evr : (s.updRtc f).evr = s.evr := rfl
@[simp] theorem State.updRtc_wdg : (s.updRtc f).wdg = s.wdg := rfl
@[simp] theorem State.updRtc_host : (s.updRtc f).host = s.host := rfl
@[simp] theorem State.updRtc_upd : (s.updRtc f).upd = s.upd := rfl
@[simp] theorem State.updRtc_trust : (s.updRtc f).trust = s.trust := rfl
@[simp] theorem State.updRtc_exch : (s.updRtc f).exch = s.exch := rfl
@[simp] theorem State.updRtc_out : (s.updRtc f).out = s.out := rfl
@[simp] theorem State.updRtc_free : (s.updRtc f).free = s.free := rfl
end updRtc

/-! ## updTick -/

section updTick
variable (f : Tick → Tick)
@[simp] theorem State.updTick_tick : (s.updTick f).tick = f s.tick := rfl
@[simp] theorem State.updTick_pending : (s.updTick f).pending = s.pending := rfl
@[simp] theorem State.updTick_mode : (s.updTick f).mode = s.mode := rfl
@[simp] theorem State.updTick_role : (s.updTick f).role = s.role := rfl
@[simp] theorem State.updTick_par : (s.updTick f).par = s.par := rfl
@[simp] theorem State.updTick_cores : (s.updTick f).cores = s.cores := rfl
@[simp] theorem State.updTick_sv : (s.updTick f).sv = s.sv := rfl
@[simp] theorem State.updTick_mem : (s.updTick f).mem = s.mem := rfl
@[simp] theorem State.updTick_prog : (s.updTick f).prog = s.prog := rfl
@[simp] theorem State.updTick_ret : (s.updTick f).ret = s.ret := rfl
@[simp] theorem State.updTick_power : (s.updTick f).power = s.power := rfl
@[simp] theorem State.updTick_start : (s.updTick f).start = s.start := rfl
@[simp] theorem State.updTick_links : (s.updTick f).links = s.links := rfl
@[simp] theorem State.updTick_enc : (s.updTick f).enc = s.enc := rfl
@[simp] theorem State.updTick_loop : (s.updTick f).loop = s.loop := rfl
@[simp] theorem State.updTick_bus : (s.updTick f).bus = s.bus := rfl
@[simp] theorem State.updTick_dio : (s.updTick f).dio = s.dio := rfl
@[simp] theorem State.updTick_panel : (s.updTick f).panel = s.panel := rfl
@[simp] theorem State.updTick_rtc : (s.updTick f).rtc = s.rtc := rfl
@[simp] theorem State.updTick_pair : (s.updTick f).pair = s.pair := rfl
@[simp] theorem State.updTick_join : (s.updTick f).join = s.join := rfl
@[simp] theorem State.updTick_evr : (s.updTick f).evr = s.evr := rfl
@[simp] theorem State.updTick_wdg : (s.updTick f).wdg = s.wdg := rfl
@[simp] theorem State.updTick_host : (s.updTick f).host = s.host := rfl
@[simp] theorem State.updTick_upd : (s.updTick f).upd = s.upd := rfl
@[simp] theorem State.updTick_trust : (s.updTick f).trust = s.trust := rfl
@[simp] theorem State.updTick_exch : (s.updTick f).exch = s.exch := rfl
@[simp] theorem State.updTick_out : (s.updTick f).out = s.out := rfl
@[simp] theorem State.updTick_free : (s.updTick f).free = s.free := rfl
end updTick

/-! ## updStart -/

section updStart
variable (f : Start → Start)
@[simp] theorem State.updStart_start : (s.updStart f).start = f s.start := rfl
@[simp] theorem State.updStart_pending : (s.updStart f).pending = s.pending := rfl
@[simp] theorem State.updStart_tick : (s.updStart f).tick = s.tick := rfl
@[simp] theorem State.updStart_mode : (s.updStart f).mode = s.mode := rfl
@[simp] theorem State.updStart_role : (s.updStart f).role = s.role := rfl
@[simp] theorem State.updStart_par : (s.updStart f).par = s.par := rfl
@[simp] theorem State.updStart_cores : (s.updStart f).cores = s.cores := rfl
@[simp] theorem State.updStart_sv : (s.updStart f).sv = s.sv := rfl
@[simp] theorem State.updStart_mem : (s.updStart f).mem = s.mem := rfl
@[simp] theorem State.updStart_prog : (s.updStart f).prog = s.prog := rfl
@[simp] theorem State.updStart_ret : (s.updStart f).ret = s.ret := rfl
@[simp] theorem State.updStart_power : (s.updStart f).power = s.power := rfl
@[simp] theorem State.updStart_links : (s.updStart f).links = s.links := rfl
@[simp] theorem State.updStart_enc : (s.updStart f).enc = s.enc := rfl
@[simp] theorem State.updStart_loop : (s.updStart f).loop = s.loop := rfl
@[simp] theorem State.updStart_bus : (s.updStart f).bus = s.bus := rfl
@[simp] theorem State.updStart_dio : (s.updStart f).dio = s.dio := rfl
@[simp] theorem State.updStart_panel : (s.updStart f).panel = s.panel := rfl
@[simp] theorem State.updStart_rtc : (s.updStart f).rtc = s.rtc := rfl
@[simp] theorem State.updStart_pair : (s.updStart f).pair = s.pair := rfl
@[simp] theorem State.updStart_join : (s.updStart f).join = s.join := rfl
@[simp] theorem State.updStart_evr : (s.updStart f).evr = s.evr := rfl
@[simp] theorem State.updStart_wdg : (s.updStart f).wdg = s.wdg := rfl
@[simp] theorem State.updStart_host : (s.updStart f).host = s.host := rfl
@[simp] theorem State.updStart_upd : (s.updStart f).upd = s.upd := rfl
@[simp] theorem State.updStart_trust : (s.updStart f).trust = s.trust := rfl
@[simp] theorem State.updStart_exch : (s.updStart f).exch = s.exch := rfl
@[simp] theorem State.updStart_out : (s.updStart f).out = s.out := rfl
@[simp] theorem State.updStart_free : (s.updStart f).free = s.free := rfl
end updStart

/-! ## updPower -/

section updPower
variable (f : Power → Power)
@[simp] theorem State.updPower_power : (s.updPower f).power = f s.power := rfl
@[simp] theorem State.updPower_pending : (s.updPower f).pending = s.pending := rfl
@[simp] theorem State.updPower_tick : (s.updPower f).tick = s.tick := rfl
@[simp] theorem State.updPower_mode : (s.updPower f).mode = s.mode := rfl
@[simp] theorem State.updPower_role : (s.updPower f).role = s.role := rfl
@[simp] theorem State.updPower_par : (s.updPower f).par = s.par := rfl
@[simp] theorem State.updPower_cores : (s.updPower f).cores = s.cores := rfl
@[simp] theorem State.updPower_sv : (s.updPower f).sv = s.sv := rfl
@[simp] theorem State.updPower_mem : (s.updPower f).mem = s.mem := rfl
@[simp] theorem State.updPower_prog : (s.updPower f).prog = s.prog := rfl
@[simp] theorem State.updPower_ret : (s.updPower f).ret = s.ret := rfl
@[simp] theorem State.updPower_start : (s.updPower f).start = s.start := rfl
@[simp] theorem State.updPower_links : (s.updPower f).links = s.links := rfl
@[simp] theorem State.updPower_enc : (s.updPower f).enc = s.enc := rfl
@[simp] theorem State.updPower_loop : (s.updPower f).loop = s.loop := rfl
@[simp] theorem State.updPower_bus : (s.updPower f).bus = s.bus := rfl
@[simp] theorem State.updPower_dio : (s.updPower f).dio = s.dio := rfl
@[simp] theorem State.updPower_panel : (s.updPower f).panel = s.panel := rfl
@[simp] theorem State.updPower_rtc : (s.updPower f).rtc = s.rtc := rfl
@[simp] theorem State.updPower_pair : (s.updPower f).pair = s.pair := rfl
@[simp] theorem State.updPower_join : (s.updPower f).join = s.join := rfl
@[simp] theorem State.updPower_evr : (s.updPower f).evr = s.evr := rfl
@[simp] theorem State.updPower_wdg : (s.updPower f).wdg = s.wdg := rfl
@[simp] theorem State.updPower_host : (s.updPower f).host = s.host := rfl
@[simp] theorem State.updPower_upd : (s.updPower f).upd = s.upd := rfl
@[simp] theorem State.updPower_trust : (s.updPower f).trust = s.trust := rfl
@[simp] theorem State.updPower_exch : (s.updPower f).exch = s.exch := rfl
@[simp] theorem State.updPower_out : (s.updPower f).out = s.out := rfl
@[simp] theorem State.updPower_free : (s.updPower f).free = s.free := rfl
end updPower

/-! ## updUpd -/

section updUpd
variable (f : Upd → Upd)
@[simp] theorem State.updUpd_upd : (s.updUpd f).upd = f s.upd := rfl
@[simp] theorem State.updUpd_pending : (s.updUpd f).pending = s.pending := rfl
@[simp] theorem State.updUpd_tick : (s.updUpd f).tick = s.tick := rfl
@[simp] theorem State.updUpd_mode : (s.updUpd f).mode = s.mode := rfl
@[simp] theorem State.updUpd_role : (s.updUpd f).role = s.role := rfl
@[simp] theorem State.updUpd_par : (s.updUpd f).par = s.par := rfl
@[simp] theorem State.updUpd_cores : (s.updUpd f).cores = s.cores := rfl
@[simp] theorem State.updUpd_sv : (s.updUpd f).sv = s.sv := rfl
@[simp] theorem State.updUpd_mem : (s.updUpd f).mem = s.mem := rfl
@[simp] theorem State.updUpd_prog : (s.updUpd f).prog = s.prog := rfl
@[simp] theorem State.updUpd_ret : (s.updUpd f).ret = s.ret := rfl
@[simp] theorem State.updUpd_power : (s.updUpd f).power = s.power := rfl
@[simp] theorem State.updUpd_start : (s.updUpd f).start = s.start := rfl
@[simp] theorem State.updUpd_links : (s.updUpd f).links = s.links := rfl
@[simp] theorem State.updUpd_enc : (s.updUpd f).enc = s.enc := rfl
@[simp] theorem State.updUpd_loop : (s.updUpd f).loop = s.loop := rfl
@[simp] theorem State.updUpd_bus : (s.updUpd f).bus = s.bus := rfl
@[simp] theorem State.updUpd_dio : (s.updUpd f).dio = s.dio := rfl
@[simp] theorem State.updUpd_panel : (s.updUpd f).panel = s.panel := rfl
@[simp] theorem State.updUpd_rtc : (s.updUpd f).rtc = s.rtc := rfl
@[simp] theorem State.updUpd_pair : (s.updUpd f).pair = s.pair := rfl
@[simp] theorem State.updUpd_join : (s.updUpd f).join = s.join := rfl
@[simp] theorem State.updUpd_evr : (s.updUpd f).evr = s.evr := rfl
@[simp] theorem State.updUpd_wdg : (s.updUpd f).wdg = s.wdg := rfl
@[simp] theorem State.updUpd_host : (s.updUpd f).host = s.host := rfl
@[simp] theorem State.updUpd_trust : (s.updUpd f).trust = s.trust := rfl
@[simp] theorem State.updUpd_exch : (s.updUpd f).exch = s.exch := rfl
@[simp] theorem State.updUpd_out : (s.updUpd f).out = s.out := rfl
@[simp] theorem State.updUpd_free : (s.updUpd f).free = s.free := rfl
end updUpd

/-! ## updWdg -/

section updWdg
variable (f : Wdg → Wdg)
@[simp] theorem State.updWdg_wdg : (s.updWdg f).wdg = f s.wdg := rfl
@[simp] theorem State.updWdg_pending : (s.updWdg f).pending = s.pending := rfl
@[simp] theorem State.updWdg_tick : (s.updWdg f).tick = s.tick := rfl
@[simp] theorem State.updWdg_mode : (s.updWdg f).mode = s.mode := rfl
@[simp] theorem State.updWdg_role : (s.updWdg f).role = s.role := rfl
@[simp] theorem State.updWdg_par : (s.updWdg f).par = s.par := rfl
@[simp] theorem State.updWdg_cores : (s.updWdg f).cores = s.cores := rfl
@[simp] theorem State.updWdg_sv : (s.updWdg f).sv = s.sv := rfl
@[simp] theorem State.updWdg_mem : (s.updWdg f).mem = s.mem := rfl
@[simp] theorem State.updWdg_prog : (s.updWdg f).prog = s.prog := rfl
@[simp] theorem State.updWdg_ret : (s.updWdg f).ret = s.ret := rfl
@[simp] theorem State.updWdg_power : (s.updWdg f).power = s.power := rfl
@[simp] theorem State.updWdg_start : (s.updWdg f).start = s.start := rfl
@[simp] theorem State.updWdg_links : (s.updWdg f).links = s.links := rfl
@[simp] theorem State.updWdg_enc : (s.updWdg f).enc = s.enc := rfl
@[simp] theorem State.updWdg_loop : (s.updWdg f).loop = s.loop := rfl
@[simp] theorem State.updWdg_bus : (s.updWdg f).bus = s.bus := rfl
@[simp] theorem State.updWdg_dio : (s.updWdg f).dio = s.dio := rfl
@[simp] theorem State.updWdg_panel : (s.updWdg f).panel = s.panel := rfl
@[simp] theorem State.updWdg_rtc : (s.updWdg f).rtc = s.rtc := rfl
@[simp] theorem State.updWdg_pair : (s.updWdg f).pair = s.pair := rfl
@[simp] theorem State.updWdg_join : (s.updWdg f).join = s.join := rfl
@[simp] theorem State.updWdg_evr : (s.updWdg f).evr = s.evr := rfl
@[simp] theorem State.updWdg_host : (s.updWdg f).host = s.host := rfl
@[simp] theorem State.updWdg_upd : (s.updWdg f).upd = s.upd := rfl
@[simp] theorem State.updWdg_trust : (s.updWdg f).trust = s.trust := rfl
@[simp] theorem State.updWdg_exch : (s.updWdg f).exch = s.exch := rfl
@[simp] theorem State.updWdg_out : (s.updWdg f).out = s.out := rfl
@[simp] theorem State.updWdg_free : (s.updWdg f).free = s.free := rfl
end updWdg

/-! ## updCore -/

section updCore
variable (c : CoreId) (f : Core → Core)
@[simp] theorem State.updCore_cores : (s.updCore c f).cores = s.cores.set c (f s.cores[c]) c.isLt := rfl
@[simp] theorem State.updCore_sv : (s.updCore c f).sv = s.sv := rfl
@[simp] theorem State.updCore_pending : (s.updCore c f).pending = s.pending := rfl
@[simp] theorem State.updCore_tick : (s.updCore c f).tick = s.tick := rfl
@[simp] theorem State.updCore_mode : (s.updCore c f).mode = s.mode := rfl
@[simp] theorem State.updCore_role : (s.updCore c f).role = s.role := rfl
@[simp] theorem State.updCore_par : (s.updCore c f).par = s.par := rfl
@[simp] theorem State.updCore_mem : (s.updCore c f).mem = s.mem := rfl
@[simp] theorem State.updCore_prog : (s.updCore c f).prog = s.prog := rfl
@[simp] theorem State.updCore_ret : (s.updCore c f).ret = s.ret := rfl
@[simp] theorem State.updCore_power : (s.updCore c f).power = s.power := rfl
@[simp] theorem State.updCore_start : (s.updCore c f).start = s.start := rfl
@[simp] theorem State.updCore_links : (s.updCore c f).links = s.links := rfl
@[simp] theorem State.updCore_enc : (s.updCore c f).enc = s.enc := rfl
@[simp] theorem State.updCore_loop : (s.updCore c f).loop = s.loop := rfl
@[simp] theorem State.updCore_bus : (s.updCore c f).bus = s.bus := rfl
@[simp] theorem State.updCore_dio : (s.updCore c f).dio = s.dio := rfl
@[simp] theorem State.updCore_panel : (s.updCore c f).panel = s.panel := rfl
@[simp] theorem State.updCore_rtc : (s.updCore c f).rtc = s.rtc := rfl
@[simp] theorem State.updCore_pair : (s.updCore c f).pair = s.pair := rfl
@[simp] theorem State.updCore_join : (s.updCore c f).join = s.join := rfl
@[simp] theorem State.updCore_evr : (s.updCore c f).evr = s.evr := rfl
@[simp] theorem State.updCore_wdg : (s.updCore c f).wdg = s.wdg := rfl
@[simp] theorem State.updCore_host : (s.updCore c f).host = s.host := rfl
@[simp] theorem State.updCore_upd : (s.updCore c f).upd = s.upd := rfl
@[simp] theorem State.updCore_trust : (s.updCore c f).trust = s.trust := rfl
@[simp] theorem State.updCore_exch : (s.updCore c f).exch = s.exch := rfl
@[simp] theorem State.updCore_out : (s.updCore c f).out = s.out := rfl
@[simp] theorem State.updCore_free : (s.updCore c f).free = s.free := rfl
end updCore

/-! ## updLink -/

section updLink
variable (k : Fin 16) (f : LinkSt → LinkSt)
@[simp] theorem State.updLink_links : (s.updLink k f).links = s.links.set k (f s.links[k]) k.isLt := rfl
@[simp] theorem State.updLink_pending : (s.updLink k f).pending = s.pending := rfl
@[simp] theorem State.updLink_tick : (s.updLink k f).tick = s.tick := rfl
@[simp] theorem State.updLink_mode : (s.updLink k f).mode = s.mode := rfl
@[simp] theorem State.updLink_role : (s.updLink k f).role = s.role := rfl
@[simp] theorem State.updLink_par : (s.updLink k f).par = s.par := rfl
@[simp] theorem State.updLink_cores : (s.updLink k f).cores = s.cores := rfl
@[simp] theorem State.updLink_sv : (s.updLink k f).sv = s.sv := rfl
@[simp] theorem State.updLink_mem : (s.updLink k f).mem = s.mem := rfl
@[simp] theorem State.updLink_prog : (s.updLink k f).prog = s.prog := rfl
@[simp] theorem State.updLink_ret : (s.updLink k f).ret = s.ret := rfl
@[simp] theorem State.updLink_power : (s.updLink k f).power = s.power := rfl
@[simp] theorem State.updLink_start : (s.updLink k f).start = s.start := rfl
@[simp] theorem State.updLink_enc : (s.updLink k f).enc = s.enc := rfl
@[simp] theorem State.updLink_loop : (s.updLink k f).loop = s.loop := rfl
@[simp] theorem State.updLink_bus : (s.updLink k f).bus = s.bus := rfl
@[simp] theorem State.updLink_dio : (s.updLink k f).dio = s.dio := rfl
@[simp] theorem State.updLink_panel : (s.updLink k f).panel = s.panel := rfl
@[simp] theorem State.updLink_rtc : (s.updLink k f).rtc = s.rtc := rfl
@[simp] theorem State.updLink_pair : (s.updLink k f).pair = s.pair := rfl
@[simp] theorem State.updLink_join : (s.updLink k f).join = s.join := rfl
@[simp] theorem State.updLink_evr : (s.updLink k f).evr = s.evr := rfl
@[simp] theorem State.updLink_wdg : (s.updLink k f).wdg = s.wdg := rfl
@[simp] theorem State.updLink_host : (s.updLink k f).host = s.host := rfl
@[simp] theorem State.updLink_upd : (s.updLink k f).upd = s.upd := rfl
@[simp] theorem State.updLink_trust : (s.updLink k f).trust = s.trust := rfl
@[simp] theorem State.updLink_exch : (s.updLink k f).exch = s.exch := rfl
@[simp] theorem State.updLink_out : (s.updLink k f).out = s.out := rfl
@[simp] theorem State.updLink_free : (s.updLink k f).free = s.free := rfl
end updLink

/-! ## updBus -/

section updBus
variable (m : Fin 4) (f : BusSt → BusSt)
@[simp] theorem State.updBus_bus : (s.updBus m f).bus = s.bus.set m (f s.bus[m]) m.isLt := rfl
@[simp] theorem State.updBus_pending : (s.updBus m f).pending = s.pending := rfl
@[simp] theorem State.updBus_tick : (s.updBus m f).tick = s.tick := rfl
@[simp] theorem State.updBus_mode : (s.updBus m f).mode = s.mode := rfl
@[simp] theorem State.updBus_role : (s.updBus m f).role = s.role := rfl
@[simp] theorem State.updBus_par : (s.updBus m f).par = s.par := rfl
@[simp] theorem State.updBus_cores : (s.updBus m f).cores = s.cores := rfl
@[simp] theorem State.updBus_sv : (s.updBus m f).sv = s.sv := rfl
@[simp] theorem State.updBus_mem : (s.updBus m f).mem = s.mem := rfl
@[simp] theorem State.updBus_prog : (s.updBus m f).prog = s.prog := rfl
@[simp] theorem State.updBus_ret : (s.updBus m f).ret = s.ret := rfl
@[simp] theorem State.updBus_power : (s.updBus m f).power = s.power := rfl
@[simp] theorem State.updBus_start : (s.updBus m f).start = s.start := rfl
@[simp] theorem State.updBus_links : (s.updBus m f).links = s.links := rfl
@[simp] theorem State.updBus_enc : (s.updBus m f).enc = s.enc := rfl
@[simp] theorem State.updBus_loop : (s.updBus m f).loop = s.loop := rfl
@[simp] theorem State.updBus_dio : (s.updBus m f).dio = s.dio := rfl
@[simp] theorem State.updBus_panel : (s.updBus m f).panel = s.panel := rfl
@[simp] theorem State.updBus_rtc : (s.updBus m f).rtc = s.rtc := rfl
@[simp] theorem State.updBus_pair : (s.updBus m f).pair = s.pair := rfl
@[simp] theorem State.updBus_join : (s.updBus m f).join = s.join := rfl
@[simp] theorem State.updBus_evr : (s.updBus m f).evr = s.evr := rfl
@[simp] theorem State.updBus_wdg : (s.updBus m f).wdg = s.wdg := rfl
@[simp] theorem State.updBus_host : (s.updBus m f).host = s.host := rfl
@[simp] theorem State.updBus_upd : (s.updBus m f).upd = s.upd := rfl
@[simp] theorem State.updBus_trust : (s.updBus m f).trust = s.trust := rfl
@[simp] theorem State.updBus_exch : (s.updBus m f).exch = s.exch := rfl
@[simp] theorem State.updBus_out : (s.updBus m f).out = s.out := rfl
@[simp] theorem State.updBus_free : (s.updBus m f).free = s.free := rfl
end updBus

/-! ## updEnc -/

section updEnc
variable (k : Fin 4) (f : EncPort → EncPort)
@[simp] theorem State.updEnc_pending : (s.updEnc k f).pending = s.pending := rfl
@[simp] theorem State.updEnc_tick : (s.updEnc k f).tick = s.tick := rfl
@[simp] theorem State.updEnc_mode : (s.updEnc k f).mode = s.mode := rfl
@[simp] theorem State.updEnc_role : (s.updEnc k f).role = s.role := rfl
@[simp] theorem State.updEnc_par : (s.updEnc k f).par = s.par := rfl
@[simp] theorem State.updEnc_cores : (s.updEnc k f).cores = s.cores := rfl
@[simp] theorem State.updEnc_sv : (s.updEnc k f).sv = s.sv := rfl
@[simp] theorem State.updEnc_mem : (s.updEnc k f).mem = s.mem := rfl
@[simp] theorem State.updEnc_prog : (s.updEnc k f).prog = s.prog := rfl
@[simp] theorem State.updEnc_ret : (s.updEnc k f).ret = s.ret := rfl
@[simp] theorem State.updEnc_power : (s.updEnc k f).power = s.power := rfl
@[simp] theorem State.updEnc_start : (s.updEnc k f).start = s.start := rfl
@[simp] theorem State.updEnc_links : (s.updEnc k f).links = s.links := rfl
@[simp] theorem State.updEnc_loop : (s.updEnc k f).loop = s.loop := rfl
@[simp] theorem State.updEnc_bus : (s.updEnc k f).bus = s.bus := rfl
@[simp] theorem State.updEnc_dio : (s.updEnc k f).dio = s.dio := rfl
@[simp] theorem State.updEnc_panel : (s.updEnc k f).panel = s.panel := rfl
@[simp] theorem State.updEnc_rtc : (s.updEnc k f).rtc = s.rtc := rfl
@[simp] theorem State.updEnc_pair : (s.updEnc k f).pair = s.pair := rfl
@[simp] theorem State.updEnc_join : (s.updEnc k f).join = s.join := rfl
@[simp] theorem State.updEnc_evr : (s.updEnc k f).evr = s.evr := rfl
@[simp] theorem State.updEnc_wdg : (s.updEnc k f).wdg = s.wdg := rfl
@[simp] theorem State.updEnc_host : (s.updEnc k f).host = s.host := rfl
@[simp] theorem State.updEnc_upd : (s.updEnc k f).upd = s.upd := rfl
@[simp] theorem State.updEnc_trust : (s.updEnc k f).trust = s.trust := rfl
@[simp] theorem State.updEnc_exch : (s.updEnc k f).exch = s.exch := rfl
@[simp] theorem State.updEnc_out : (s.updEnc k f).out = s.out := rfl
@[simp] theorem State.updEnc_free : (s.updEnc k f).free = s.free := rfl
end updEnc

/-! ## updLane -/

section updLane
variable (l : Fin 4) (f : Lane → Lane)
@[simp] theorem State.updLane_pending : (s.updLane l f).pending = s.pending := rfl
@[simp] theorem State.updLane_tick : (s.updLane l f).tick = s.tick := rfl
@[simp] theorem State.updLane_mode : (s.updLane l f).mode = s.mode := rfl
@[simp] theorem State.updLane_role : (s.updLane l f).role = s.role := rfl
@[simp] theorem State.updLane_par : (s.updLane l f).par = s.par := rfl
@[simp] theorem State.updLane_cores : (s.updLane l f).cores = s.cores := rfl
@[simp] theorem State.updLane_sv : (s.updLane l f).sv = s.sv := rfl
@[simp] theorem State.updLane_mem : (s.updLane l f).mem = s.mem := rfl
@[simp] theorem State.updLane_prog : (s.updLane l f).prog = s.prog := rfl
@[simp] theorem State.updLane_ret : (s.updLane l f).ret = s.ret := rfl
@[simp] theorem State.updLane_power : (s.updLane l f).power = s.power := rfl
@[simp] theorem State.updLane_start : (s.updLane l f).start = s.start := rfl
@[simp] theorem State.updLane_links : (s.updLane l f).links = s.links := rfl
@[simp] theorem State.updLane_enc : (s.updLane l f).enc = s.enc := rfl
@[simp] theorem State.updLane_loop : (s.updLane l f).loop = s.loop := rfl
@[simp] theorem State.updLane_bus : (s.updLane l f).bus = s.bus := rfl
@[simp] theorem State.updLane_dio : (s.updLane l f).dio = s.dio := rfl
@[simp] theorem State.updLane_panel : (s.updLane l f).panel = s.panel := rfl
@[simp] theorem State.updLane_rtc : (s.updLane l f).rtc = s.rtc := rfl
@[simp] theorem State.updLane_join : (s.updLane l f).join = s.join := rfl
@[simp] theorem State.updLane_evr : (s.updLane l f).evr = s.evr := rfl
@[simp] theorem State.updLane_wdg : (s.updLane l f).wdg = s.wdg := rfl
@[simp] theorem State.updLane_host : (s.updLane l f).host = s.host := rfl
@[simp] theorem State.updLane_upd : (s.updLane l f).upd = s.upd := rfl
@[simp] theorem State.updLane_trust : (s.updLane l f).trust = s.trust := rfl
@[simp] theorem State.updLane_exch : (s.updLane l f).exch = s.exch := rfl
@[simp] theorem State.updLane_out : (s.updLane l f).out = s.out := rfl
@[simp] theorem State.updLane_free : (s.updLane l f).free = s.free := rfl
end updLane

/-! ## updDi -/

section updDi
variable (i : ChNo) (f : DiCh → DiCh)
@[simp] theorem State.updDi_pending : (s.updDi i f).pending = s.pending := rfl
@[simp] theorem State.updDi_tick : (s.updDi i f).tick = s.tick := rfl
@[simp] theorem State.updDi_mode : (s.updDi i f).mode = s.mode := rfl
@[simp] theorem State.updDi_role : (s.updDi i f).role = s.role := rfl
@[simp] theorem State.updDi_par : (s.updDi i f).par = s.par := rfl
@[simp] theorem State.updDi_cores : (s.updDi i f).cores = s.cores := rfl
@[simp] theorem State.updDi_sv : (s.updDi i f).sv = s.sv := rfl
@[simp] theorem State.updDi_mem : (s.updDi i f).mem = s.mem := rfl
@[simp] theorem State.updDi_prog : (s.updDi i f).prog = s.prog := rfl
@[simp] theorem State.updDi_ret : (s.updDi i f).ret = s.ret := rfl
@[simp] theorem State.updDi_power : (s.updDi i f).power = s.power := rfl
@[simp] theorem State.updDi_start : (s.updDi i f).start = s.start := rfl
@[simp] theorem State.updDi_links : (s.updDi i f).links = s.links := rfl
@[simp] theorem State.updDi_enc : (s.updDi i f).enc = s.enc := rfl
@[simp] theorem State.updDi_loop : (s.updDi i f).loop = s.loop := rfl
@[simp] theorem State.updDi_bus : (s.updDi i f).bus = s.bus := rfl
@[simp] theorem State.updDi_panel : (s.updDi i f).panel = s.panel := rfl
@[simp] theorem State.updDi_rtc : (s.updDi i f).rtc = s.rtc := rfl
@[simp] theorem State.updDi_pair : (s.updDi i f).pair = s.pair := rfl
@[simp] theorem State.updDi_join : (s.updDi i f).join = s.join := rfl
@[simp] theorem State.updDi_evr : (s.updDi i f).evr = s.evr := rfl
@[simp] theorem State.updDi_wdg : (s.updDi i f).wdg = s.wdg := rfl
@[simp] theorem State.updDi_host : (s.updDi i f).host = s.host := rfl
@[simp] theorem State.updDi_upd : (s.updDi i f).upd = s.upd := rfl
@[simp] theorem State.updDi_trust : (s.updDi i f).trust = s.trust := rfl
@[simp] theorem State.updDi_exch : (s.updDi i f).exch = s.exch := rfl
@[simp] theorem State.updDi_out : (s.updDi i f).out = s.out := rfl
@[simp] theorem State.updDi_free : (s.updDi i f).free = s.free := rfl
end updDi

/-! ## updDo -/

section updDo
variable (i : ChNo) (f : DoCh → DoCh)
@[simp] theorem State.updDo_pending : (s.updDo i f).pending = s.pending := rfl
@[simp] theorem State.updDo_tick : (s.updDo i f).tick = s.tick := rfl
@[simp] theorem State.updDo_mode : (s.updDo i f).mode = s.mode := rfl
@[simp] theorem State.updDo_role : (s.updDo i f).role = s.role := rfl
@[simp] theorem State.updDo_par : (s.updDo i f).par = s.par := rfl
@[simp] theorem State.updDo_cores : (s.updDo i f).cores = s.cores := rfl
@[simp] theorem State.updDo_sv : (s.updDo i f).sv = s.sv := rfl
@[simp] theorem State.updDo_mem : (s.updDo i f).mem = s.mem := rfl
@[simp] theorem State.updDo_prog : (s.updDo i f).prog = s.prog := rfl
@[simp] theorem State.updDo_ret : (s.updDo i f).ret = s.ret := rfl
@[simp] theorem State.updDo_power : (s.updDo i f).power = s.power := rfl
@[simp] theorem State.updDo_start : (s.updDo i f).start = s.start := rfl
@[simp] theorem State.updDo_links : (s.updDo i f).links = s.links := rfl
@[simp] theorem State.updDo_enc : (s.updDo i f).enc = s.enc := rfl
@[simp] theorem State.updDo_loop : (s.updDo i f).loop = s.loop := rfl
@[simp] theorem State.updDo_bus : (s.updDo i f).bus = s.bus := rfl
@[simp] theorem State.updDo_panel : (s.updDo i f).panel = s.panel := rfl
@[simp] theorem State.updDo_rtc : (s.updDo i f).rtc = s.rtc := rfl
@[simp] theorem State.updDo_pair : (s.updDo i f).pair = s.pair := rfl
@[simp] theorem State.updDo_join : (s.updDo i f).join = s.join := rfl
@[simp] theorem State.updDo_evr : (s.updDo i f).evr = s.evr := rfl
@[simp] theorem State.updDo_wdg : (s.updDo i f).wdg = s.wdg := rfl
@[simp] theorem State.updDo_host : (s.updDo i f).host = s.host := rfl
@[simp] theorem State.updDo_upd : (s.updDo i f).upd = s.upd := rfl
@[simp] theorem State.updDo_trust : (s.updDo i f).trust = s.trust := rfl
@[simp] theorem State.updDo_exch : (s.updDo i f).exch = s.exch := rfl
@[simp] theorem State.updDo_out : (s.updDo i f).out = s.out := rfl
@[simp] theorem State.updDo_free : (s.updDo i f).free = s.free := rfl
end updDo

/-! ## updSess -/

section updSess
variable (i : Fin 8) (f : Sess → Sess)
@[simp] theorem State.updSess_pending : (s.updSess i f).pending = s.pending := rfl
@[simp] theorem State.updSess_tick : (s.updSess i f).tick = s.tick := rfl
@[simp] theorem State.updSess_mode : (s.updSess i f).mode = s.mode := rfl
@[simp] theorem State.updSess_role : (s.updSess i f).role = s.role := rfl
@[simp] theorem State.updSess_par : (s.updSess i f).par = s.par := rfl
@[simp] theorem State.updSess_cores : (s.updSess i f).cores = s.cores := rfl
@[simp] theorem State.updSess_sv : (s.updSess i f).sv = s.sv := rfl
@[simp] theorem State.updSess_mem : (s.updSess i f).mem = s.mem := rfl
@[simp] theorem State.updSess_prog : (s.updSess i f).prog = s.prog := rfl
@[simp] theorem State.updSess_ret : (s.updSess i f).ret = s.ret := rfl
@[simp] theorem State.updSess_power : (s.updSess i f).power = s.power := rfl
@[simp] theorem State.updSess_start : (s.updSess i f).start = s.start := rfl
@[simp] theorem State.updSess_links : (s.updSess i f).links = s.links := rfl
@[simp] theorem State.updSess_enc : (s.updSess i f).enc = s.enc := rfl
@[simp] theorem State.updSess_loop : (s.updSess i f).loop = s.loop := rfl
@[simp] theorem State.updSess_bus : (s.updSess i f).bus = s.bus := rfl
@[simp] theorem State.updSess_dio : (s.updSess i f).dio = s.dio := rfl
@[simp] theorem State.updSess_panel : (s.updSess i f).panel = s.panel := rfl
@[simp] theorem State.updSess_rtc : (s.updSess i f).rtc = s.rtc := rfl
@[simp] theorem State.updSess_pair : (s.updSess i f).pair = s.pair := rfl
@[simp] theorem State.updSess_join : (s.updSess i f).join = s.join := rfl
@[simp] theorem State.updSess_evr : (s.updSess i f).evr = s.evr := rfl
@[simp] theorem State.updSess_wdg : (s.updSess i f).wdg = s.wdg := rfl
@[simp] theorem State.updSess_upd : (s.updSess i f).upd = s.upd := rfl
@[simp] theorem State.updSess_trust : (s.updSess i f).trust = s.trust := rfl
@[simp] theorem State.updSess_exch : (s.updSess i f).exch = s.exch := rfl
@[simp] theorem State.updSess_out : (s.updSess i f).out = s.out := rfl
@[simp] theorem State.updSess_free : (s.updSess i f).free = s.free := rfl
end updSess

/-! ## updHdr -/

section updHdr
variable (i : Fin 8) (f : SessHdr → SessHdr)
@[simp] theorem State.updHdr_pending : (s.updHdr i f).pending = s.pending := rfl
@[simp] theorem State.updHdr_tick : (s.updHdr i f).tick = s.tick := rfl
@[simp] theorem State.updHdr_mode : (s.updHdr i f).mode = s.mode := rfl
@[simp] theorem State.updHdr_role : (s.updHdr i f).role = s.role := rfl
@[simp] theorem State.updHdr_par : (s.updHdr i f).par = s.par := rfl
@[simp] theorem State.updHdr_cores : (s.updHdr i f).cores = s.cores := rfl
@[simp] theorem State.updHdr_sv : (s.updHdr i f).sv = s.sv := rfl
@[simp] theorem State.updHdr_mem : (s.updHdr i f).mem = s.mem := rfl
@[simp] theorem State.updHdr_prog : (s.updHdr i f).prog = s.prog := rfl
@[simp] theorem State.updHdr_power : (s.updHdr i f).power = s.power := rfl
@[simp] theorem State.updHdr_start : (s.updHdr i f).start = s.start := rfl
@[simp] theorem State.updHdr_links : (s.updHdr i f).links = s.links := rfl
@[simp] theorem State.updHdr_enc : (s.updHdr i f).enc = s.enc := rfl
@[simp] theorem State.updHdr_loop : (s.updHdr i f).loop = s.loop := rfl
@[simp] theorem State.updHdr_bus : (s.updHdr i f).bus = s.bus := rfl
@[simp] theorem State.updHdr_dio : (s.updHdr i f).dio = s.dio := rfl
@[simp] theorem State.updHdr_panel : (s.updHdr i f).panel = s.panel := rfl
@[simp] theorem State.updHdr_rtc : (s.updHdr i f).rtc = s.rtc := rfl
@[simp] theorem State.updHdr_pair : (s.updHdr i f).pair = s.pair := rfl
@[simp] theorem State.updHdr_join : (s.updHdr i f).join = s.join := rfl
@[simp] theorem State.updHdr_evr : (s.updHdr i f).evr = s.evr := rfl
@[simp] theorem State.updHdr_wdg : (s.updHdr i f).wdg = s.wdg := rfl
@[simp] theorem State.updHdr_host : (s.updHdr i f).host = s.host := rfl
@[simp] theorem State.updHdr_upd : (s.updHdr i f).upd = s.upd := rfl
@[simp] theorem State.updHdr_trust : (s.updHdr i f).trust = s.trust := rfl
@[simp] theorem State.updHdr_exch : (s.updHdr i f).exch = s.exch := rfl
@[simp] theorem State.updHdr_out : (s.updHdr i f).out = s.out := rfl
@[simp] theorem State.updHdr_free : (s.updHdr i f).free = s.free := rfl
end updHdr

/-! ## updRt -/

section updRt
variable (n : LoopNo) (f : LoopRt → LoopRt)
@[simp] theorem State.updRt_pending : (s.updRt n f).pending = s.pending := rfl
@[simp] theorem State.updRt_tick : (s.updRt n f).tick = s.tick := rfl
@[simp] theorem State.updRt_mode : (s.updRt n f).mode = s.mode := rfl
@[simp] theorem State.updRt_role : (s.updRt n f).role = s.role := rfl
@[simp] theorem State.updRt_par : (s.updRt n f).par = s.par := rfl
@[simp] theorem State.updRt_cores : (s.updRt n f).cores = s.cores := rfl
@[simp] theorem State.updRt_sv : (s.updRt n f).sv = s.sv := rfl
@[simp] theorem State.updRt_mem : (s.updRt n f).mem = s.mem := rfl
@[simp] theorem State.updRt_prog : (s.updRt n f).prog = s.prog := rfl
@[simp] theorem State.updRt_ret : (s.updRt n f).ret = s.ret := rfl
@[simp] theorem State.updRt_power : (s.updRt n f).power = s.power := rfl
@[simp] theorem State.updRt_start : (s.updRt n f).start = s.start := rfl
@[simp] theorem State.updRt_links : (s.updRt n f).links = s.links := rfl
@[simp] theorem State.updRt_enc : (s.updRt n f).enc = s.enc := rfl
@[simp] theorem State.updRt_bus : (s.updRt n f).bus = s.bus := rfl
@[simp] theorem State.updRt_dio : (s.updRt n f).dio = s.dio := rfl
@[simp] theorem State.updRt_panel : (s.updRt n f).panel = s.panel := rfl
@[simp] theorem State.updRt_rtc : (s.updRt n f).rtc = s.rtc := rfl
@[simp] theorem State.updRt_pair : (s.updRt n f).pair = s.pair := rfl
@[simp] theorem State.updRt_join : (s.updRt n f).join = s.join := rfl
@[simp] theorem State.updRt_evr : (s.updRt n f).evr = s.evr := rfl
@[simp] theorem State.updRt_wdg : (s.updRt n f).wdg = s.wdg := rfl
@[simp] theorem State.updRt_host : (s.updRt n f).host = s.host := rfl
@[simp] theorem State.updRt_upd : (s.updRt n f).upd = s.upd := rfl
@[simp] theorem State.updRt_trust : (s.updRt n f).trust = s.trust := rfl
@[simp] theorem State.updRt_exch : (s.updRt n f).exch = s.exch := rfl
@[simp] theorem State.updRt_out : (s.updRt n f).out = s.out := rfl
@[simp] theorem State.updRt_free : (s.updRt n f).free = s.free := rfl
end updRt

/-! ## updRun -/

section updRun
variable (f : TuneRun → TuneRun)
@[simp] theorem State.updRun_pending : (s.updRun f).pending = s.pending := rfl
@[simp] theorem State.updRun_tick : (s.updRun f).tick = s.tick := rfl
@[simp] theorem State.updRun_mode : (s.updRun f).mode = s.mode := rfl
@[simp] theorem State.updRun_role : (s.updRun f).role = s.role := rfl
@[simp] theorem State.updRun_par : (s.updRun f).par = s.par := rfl
@[simp] theorem State.updRun_cores : (s.updRun f).cores = s.cores := rfl
@[simp] theorem State.updRun_sv : (s.updRun f).sv = s.sv := rfl
@[simp] theorem State.updRun_mem : (s.updRun f).mem = s.mem := rfl
@[simp] theorem State.updRun_prog : (s.updRun f).prog = s.prog := rfl
@[simp] theorem State.updRun_ret : (s.updRun f).ret = s.ret := rfl
@[simp] theorem State.updRun_power : (s.updRun f).power = s.power := rfl
@[simp] theorem State.updRun_start : (s.updRun f).start = s.start := rfl
@[simp] theorem State.updRun_links : (s.updRun f).links = s.links := rfl
@[simp] theorem State.updRun_enc : (s.updRun f).enc = s.enc := rfl
@[simp] theorem State.updRun_bus : (s.updRun f).bus = s.bus := rfl
@[simp] theorem State.updRun_dio : (s.updRun f).dio = s.dio := rfl
@[simp] theorem State.updRun_panel : (s.updRun f).panel = s.panel := rfl
@[simp] theorem State.updRun_rtc : (s.updRun f).rtc = s.rtc := rfl
@[simp] theorem State.updRun_pair : (s.updRun f).pair = s.pair := rfl
@[simp] theorem State.updRun_join : (s.updRun f).join = s.join := rfl
@[simp] theorem State.updRun_evr : (s.updRun f).evr = s.evr := rfl
@[simp] theorem State.updRun_wdg : (s.updRun f).wdg = s.wdg := rfl
@[simp] theorem State.updRun_host : (s.updRun f).host = s.host := rfl
@[simp] theorem State.updRun_upd : (s.updRun f).upd = s.upd := rfl
@[simp] theorem State.updRun_trust : (s.updRun f).trust = s.trust := rfl
@[simp] theorem State.updRun_exch : (s.updRun f).exch = s.exch := rfl
@[simp] theorem State.updRun_out : (s.updRun f).out = s.out := rfl
@[simp] theorem State.updRun_free : (s.updRun f).free = s.free := rfl
end updRun

/-! ## updLoop -/

section updLoop
variable (n : LoopNo) (f : LoopRec → LoopRec)
@[simp] theorem State.updLoop_pending : (s.updLoop n f).pending = s.pending := rfl
@[simp] theorem State.updLoop_tick : (s.updLoop n f).tick = s.tick := rfl
@[simp] theorem State.updLoop_mode : (s.updLoop n f).mode = s.mode := rfl
@[simp] theorem State.updLoop_role : (s.updLoop n f).role = s.role := rfl
@[simp] theorem State.updLoop_par : (s.updLoop n f).par = s.par := rfl
@[simp] theorem State.updLoop_cores : (s.updLoop n f).cores = s.cores := rfl
@[simp] theorem State.updLoop_sv : (s.updLoop n f).sv = s.sv := rfl
@[simp] theorem State.updLoop_mem : (s.updLoop n f).mem = s.mem := rfl
@[simp] theorem State.updLoop_prog : (s.updLoop n f).prog = s.prog := rfl
@[simp] theorem State.updLoop_power : (s.updLoop n f).power = s.power := rfl
@[simp] theorem State.updLoop_start : (s.updLoop n f).start = s.start := rfl
@[simp] theorem State.updLoop_links : (s.updLoop n f).links = s.links := rfl
@[simp] theorem State.updLoop_enc : (s.updLoop n f).enc = s.enc := rfl
@[simp] theorem State.updLoop_loop : (s.updLoop n f).loop = s.loop := rfl
@[simp] theorem State.updLoop_bus : (s.updLoop n f).bus = s.bus := rfl
@[simp] theorem State.updLoop_dio : (s.updLoop n f).dio = s.dio := rfl
@[simp] theorem State.updLoop_panel : (s.updLoop n f).panel = s.panel := rfl
@[simp] theorem State.updLoop_rtc : (s.updLoop n f).rtc = s.rtc := rfl
@[simp] theorem State.updLoop_pair : (s.updLoop n f).pair = s.pair := rfl
@[simp] theorem State.updLoop_join : (s.updLoop n f).join = s.join := rfl
@[simp] theorem State.updLoop_evr : (s.updLoop n f).evr = s.evr := rfl
@[simp] theorem State.updLoop_wdg : (s.updLoop n f).wdg = s.wdg := rfl
@[simp] theorem State.updLoop_host : (s.updLoop n f).host = s.host := rfl
@[simp] theorem State.updLoop_upd : (s.updLoop n f).upd = s.upd := rfl
@[simp] theorem State.updLoop_trust : (s.updLoop n f).trust = s.trust := rfl
@[simp] theorem State.updLoop_exch : (s.updLoop n f).exch = s.exch := rfl
@[simp] theorem State.updLoop_out : (s.updLoop n f).out = s.out := rfl
@[simp] theorem State.updLoop_free : (s.updLoop n f).free = s.free := rfl
end updLoop

/-! ## updJ -/

section updJ
variable (n : Nat) (f : Journals → Journals)
@[simp] theorem State.updJ_pending : (s.updJ n f).pending = s.pending := rfl
@[simp] theorem State.updJ_tick : (s.updJ n f).tick = s.tick := rfl
@[simp] theorem State.updJ_mode : (s.updJ n f).mode = s.mode := rfl
@[simp] theorem State.updJ_role : (s.updJ n f).role = s.role := rfl
@[simp] theorem State.updJ_par : (s.updJ n f).par = s.par := rfl
@[simp] theorem State.updJ_cores : (s.updJ n f).cores = s.cores := rfl
@[simp] theorem State.updJ_sv : (s.updJ n f).sv = s.sv := rfl
@[simp] theorem State.updJ_mem : (s.updJ n f).mem = s.mem := rfl
@[simp] theorem State.updJ_prog : (s.updJ n f).prog = s.prog := rfl
@[simp] theorem State.updJ_power : (s.updJ n f).power = s.power := rfl
@[simp] theorem State.updJ_start : (s.updJ n f).start = s.start := rfl
@[simp] theorem State.updJ_links : (s.updJ n f).links = s.links := rfl
@[simp] theorem State.updJ_enc : (s.updJ n f).enc = s.enc := rfl
@[simp] theorem State.updJ_loop : (s.updJ n f).loop = s.loop := rfl
@[simp] theorem State.updJ_bus : (s.updJ n f).bus = s.bus := rfl
@[simp] theorem State.updJ_dio : (s.updJ n f).dio = s.dio := rfl
@[simp] theorem State.updJ_panel : (s.updJ n f).panel = s.panel := rfl
@[simp] theorem State.updJ_rtc : (s.updJ n f).rtc = s.rtc := rfl
@[simp] theorem State.updJ_pair : (s.updJ n f).pair = s.pair := rfl
@[simp] theorem State.updJ_join : (s.updJ n f).join = s.join := rfl
@[simp] theorem State.updJ_evr : (s.updJ n f).evr = s.evr := rfl
@[simp] theorem State.updJ_wdg : (s.updJ n f).wdg = s.wdg := rfl
@[simp] theorem State.updJ_host : (s.updJ n f).host = s.host := rfl
@[simp] theorem State.updJ_upd : (s.updJ n f).upd = s.upd := rfl
@[simp] theorem State.updJ_trust : (s.updJ n f).trust = s.trust := rfl
@[simp] theorem State.updJ_exch : (s.updJ n f).exch = s.exch := rfl
@[simp] theorem State.updJ_out : (s.updJ n f).out = s.out := rfl
@[simp] theorem State.updJ_free : (s.updJ n f).free = s.free := rfl
end updJ

/-! ## updX -/

section updX
variable (n : Nat) (f : ExecRet → ExecRet)
@[simp] theorem State.updX_pending : (s.updX n f).pending = s.pending := rfl
@[simp] theorem State.updX_tick : (s.updX n f).tick = s.tick := rfl
@[simp] theorem State.updX_mode : (s.updX n f).mode = s.mode := rfl
@[simp] theorem State.updX_role : (s.updX n f).role = s.role := rfl
@[simp] theorem State.updX_par : (s.updX n f).par = s.par := rfl
@[simp] theorem State.updX_cores : (s.updX n f).cores = s.cores := rfl
@[simp] theorem State.updX_sv : (s.updX n f).sv = s.sv := rfl
@[simp] theorem State.updX_mem : (s.updX n f).mem = s.mem := rfl
@[simp] theorem State.updX_prog : (s.updX n f).prog = s.prog := rfl
@[simp] theorem State.updX_power : (s.updX n f).power = s.power := rfl
@[simp] theorem State.updX_start : (s.updX n f).start = s.start := rfl
@[simp] theorem State.updX_links : (s.updX n f).links = s.links := rfl
@[simp] theorem State.updX_enc : (s.updX n f).enc = s.enc := rfl
@[simp] theorem State.updX_loop : (s.updX n f).loop = s.loop := rfl
@[simp] theorem State.updX_bus : (s.updX n f).bus = s.bus := rfl
@[simp] theorem State.updX_dio : (s.updX n f).dio = s.dio := rfl
@[simp] theorem State.updX_panel : (s.updX n f).panel = s.panel := rfl
@[simp] theorem State.updX_rtc : (s.updX n f).rtc = s.rtc := rfl
@[simp] theorem State.updX_pair : (s.updX n f).pair = s.pair := rfl
@[simp] theorem State.updX_join : (s.updX n f).join = s.join := rfl
@[simp] theorem State.updX_evr : (s.updX n f).evr = s.evr := rfl
@[simp] theorem State.updX_wdg : (s.updX n f).wdg = s.wdg := rfl
@[simp] theorem State.updX_host : (s.updX n f).host = s.host := rfl
@[simp] theorem State.updX_upd : (s.updX n f).upd = s.upd := rfl
@[simp] theorem State.updX_trust : (s.updX n f).trust = s.trust := rfl
@[simp] theorem State.updX_exch : (s.updX n f).exch = s.exch := rfl
@[simp] theorem State.updX_out : (s.updX n f).out = s.out := rfl
@[simp] theorem State.updX_free : (s.updX n f).free = s.free := rfl
end updX

/-! ## updPJ -/

section updPJ
variable (n : Nat) (f : PanelJ → PanelJ)
@[simp] theorem State.updPJ_pending : (s.updPJ n f).pending = s.pending := rfl
@[simp] theorem State.updPJ_tick : (s.updPJ n f).tick = s.tick := rfl
@[simp] theorem State.updPJ_mode : (s.updPJ n f).mode = s.mode := rfl
@[simp] theorem State.updPJ_role : (s.updPJ n f).role = s.role := rfl
@[simp] theorem State.updPJ_par : (s.updPJ n f).par = s.par := rfl
@[simp] theorem State.updPJ_cores : (s.updPJ n f).cores = s.cores := rfl
@[simp] theorem State.updPJ_sv : (s.updPJ n f).sv = s.sv := rfl
@[simp] theorem State.updPJ_mem : (s.updPJ n f).mem = s.mem := rfl
@[simp] theorem State.updPJ_prog : (s.updPJ n f).prog = s.prog := rfl
@[simp] theorem State.updPJ_power : (s.updPJ n f).power = s.power := rfl
@[simp] theorem State.updPJ_start : (s.updPJ n f).start = s.start := rfl
@[simp] theorem State.updPJ_links : (s.updPJ n f).links = s.links := rfl
@[simp] theorem State.updPJ_enc : (s.updPJ n f).enc = s.enc := rfl
@[simp] theorem State.updPJ_loop : (s.updPJ n f).loop = s.loop := rfl
@[simp] theorem State.updPJ_bus : (s.updPJ n f).bus = s.bus := rfl
@[simp] theorem State.updPJ_dio : (s.updPJ n f).dio = s.dio := rfl
@[simp] theorem State.updPJ_panel : (s.updPJ n f).panel = s.panel := rfl
@[simp] theorem State.updPJ_rtc : (s.updPJ n f).rtc = s.rtc := rfl
@[simp] theorem State.updPJ_pair : (s.updPJ n f).pair = s.pair := rfl
@[simp] theorem State.updPJ_join : (s.updPJ n f).join = s.join := rfl
@[simp] theorem State.updPJ_evr : (s.updPJ n f).evr = s.evr := rfl
@[simp] theorem State.updPJ_wdg : (s.updPJ n f).wdg = s.wdg := rfl
@[simp] theorem State.updPJ_host : (s.updPJ n f).host = s.host := rfl
@[simp] theorem State.updPJ_upd : (s.updPJ n f).upd = s.upd := rfl
@[simp] theorem State.updPJ_trust : (s.updPJ n f).trust = s.trust := rfl
@[simp] theorem State.updPJ_exch : (s.updPJ n f).exch = s.exch := rfl
@[simp] theorem State.updPJ_out : (s.updPJ n f).out = s.out := rfl
@[simp] theorem State.updPJ_free : (s.updPJ n f).free = s.free := rfl
end updPJ

/-! ## updEsc -/

section updEsc
variable (f : Esc → Esc)
@[simp] theorem State.updEsc_pending : (s.updEsc f).pending = s.pending := rfl
@[simp] theorem State.updEsc_tick : (s.updEsc f).tick = s.tick := rfl
@[simp] theorem State.updEsc_mode : (s.updEsc f).mode = s.mode := rfl
@[simp] theorem State.updEsc_role : (s.updEsc f).role = s.role := rfl
@[simp] theorem State.updEsc_par : (s.updEsc f).par = s.par := rfl
@[simp] theorem State.updEsc_cores : (s.updEsc f).cores = s.cores := rfl
@[simp] theorem State.updEsc_sv : (s.updEsc f).sv = s.sv := rfl
@[simp] theorem State.updEsc_mem : (s.updEsc f).mem = s.mem := rfl
@[simp] theorem State.updEsc_prog : (s.updEsc f).prog = s.prog := rfl
@[simp] theorem State.updEsc_power : (s.updEsc f).power = s.power := rfl
@[simp] theorem State.updEsc_start : (s.updEsc f).start = s.start := rfl
@[simp] theorem State.updEsc_links : (s.updEsc f).links = s.links := rfl
@[simp] theorem State.updEsc_enc : (s.updEsc f).enc = s.enc := rfl
@[simp] theorem State.updEsc_loop : (s.updEsc f).loop = s.loop := rfl
@[simp] theorem State.updEsc_bus : (s.updEsc f).bus = s.bus := rfl
@[simp] theorem State.updEsc_dio : (s.updEsc f).dio = s.dio := rfl
@[simp] theorem State.updEsc_panel : (s.updEsc f).panel = s.panel := rfl
@[simp] theorem State.updEsc_rtc : (s.updEsc f).rtc = s.rtc := rfl
@[simp] theorem State.updEsc_pair : (s.updEsc f).pair = s.pair := rfl
@[simp] theorem State.updEsc_join : (s.updEsc f).join = s.join := rfl
@[simp] theorem State.updEsc_evr : (s.updEsc f).evr = s.evr := rfl
@[simp] theorem State.updEsc_wdg : (s.updEsc f).wdg = s.wdg := rfl
@[simp] theorem State.updEsc_host : (s.updEsc f).host = s.host := rfl
@[simp] theorem State.updEsc_upd : (s.updEsc f).upd = s.upd := rfl
@[simp] theorem State.updEsc_trust : (s.updEsc f).trust = s.trust := rfl
@[simp] theorem State.updEsc_exch : (s.updEsc f).exch = s.exch := rfl
@[simp] theorem State.updEsc_out : (s.updEsc f).out = s.out := rfl
@[simp] theorem State.updEsc_free : (s.updEsc f).free = s.free := rfl
end updEsc

/-! ## setNow -/

section setNow
variable (t : Nat)
@[simp] theorem setNow_pending : (setNow s t).pending = s.pending := rfl
@[simp] theorem setNow_mode : (setNow s t).mode = s.mode := rfl
@[simp] theorem setNow_role : (setNow s t).role = s.role := rfl
@[simp] theorem setNow_par : (setNow s t).par = s.par := rfl
@[simp] theorem setNow_cores : (setNow s t).cores = s.cores := rfl
@[simp] theorem setNow_sv : (setNow s t).sv = s.sv := rfl
@[simp] theorem setNow_mem : (setNow s t).mem = s.mem := rfl
@[simp] theorem setNow_prog : (setNow s t).prog = s.prog := rfl
@[simp] theorem setNow_ret : (setNow s t).ret = s.ret := rfl
@[simp] theorem setNow_power : (setNow s t).power = s.power := rfl
@[simp] theorem setNow_start : (setNow s t).start = s.start := rfl
@[simp] theorem setNow_links : (setNow s t).links = s.links := rfl
@[simp] theorem setNow_enc : (setNow s t).enc = s.enc := rfl
@[simp] theorem setNow_loop : (setNow s t).loop = s.loop := rfl
@[simp] theorem setNow_bus : (setNow s t).bus = s.bus := rfl
@[simp] theorem setNow_dio : (setNow s t).dio = s.dio := rfl
@[simp] theorem setNow_panel : (setNow s t).panel = s.panel := rfl
@[simp] theorem setNow_rtc : (setNow s t).rtc = s.rtc := rfl
@[simp] theorem setNow_pair : (setNow s t).pair = s.pair := rfl
@[simp] theorem setNow_join : (setNow s t).join = s.join := rfl
@[simp] theorem setNow_evr : (setNow s t).evr = s.evr := rfl
@[simp] theorem setNow_wdg : (setNow s t).wdg = s.wdg := rfl
@[simp] theorem setNow_host : (setNow s t).host = s.host := rfl
@[simp] theorem setNow_upd : (setNow s t).upd = s.upd := rfl
@[simp] theorem setNow_trust : (setNow s t).trust = s.trust := rfl
@[simp] theorem setNow_exch : (setNow s t).exch = s.exch := rfl
@[simp] theorem setNow_out : (setNow s t).out = s.out := rfl
@[simp] theorem setNow_free : (setNow s t).free = s.free := rfl
end setNow

/-! ## emit -/

section emit
variable (o : Out)
@[simp] theorem emit_pending : (emit s o).pending = s.pending := rfl
@[simp] theorem emit_tick : (emit s o).tick = s.tick := rfl
@[simp] theorem emit_mode : (emit s o).mode = s.mode := rfl
@[simp] theorem emit_role : (emit s o).role = s.role := rfl
@[simp] theorem emit_par : (emit s o).par = s.par := rfl
@[simp] theorem emit_cores : (emit s o).cores = s.cores := rfl
@[simp] theorem emit_sv : (emit s o).sv = s.sv := rfl
@[simp] theorem emit_mem : (emit s o).mem = s.mem := rfl
@[simp] theorem emit_prog : (emit s o).prog = s.prog := rfl
@[simp] theorem emit_ret : (emit s o).ret = s.ret := rfl
@[simp] theorem emit_power : (emit s o).power = s.power := rfl
@[simp] theorem emit_start : (emit s o).start = s.start := rfl
@[simp] theorem emit_links : (emit s o).links = s.links := rfl
@[simp] theorem emit_enc : (emit s o).enc = s.enc := rfl
@[simp] theorem emit_loop : (emit s o).loop = s.loop := rfl
@[simp] theorem emit_bus : (emit s o).bus = s.bus := rfl
@[simp] theorem emit_dio : (emit s o).dio = s.dio := rfl
@[simp] theorem emit_panel : (emit s o).panel = s.panel := rfl
@[simp] theorem emit_rtc : (emit s o).rtc = s.rtc := rfl
@[simp] theorem emit_pair : (emit s o).pair = s.pair := rfl
@[simp] theorem emit_join : (emit s o).join = s.join := rfl
@[simp] theorem emit_evr : (emit s o).evr = s.evr := rfl
@[simp] theorem emit_wdg : (emit s o).wdg = s.wdg := rfl
@[simp] theorem emit_host : (emit s o).host = s.host := rfl
@[simp] theorem emit_upd : (emit s o).upd = s.upd := rfl
@[simp] theorem emit_trust : (emit s o).trust = s.trust := rfl
@[simp] theorem emit_exch : (emit s o).exch = s.exch := rfl
@[simp] theorem emit_free : (emit s o).free = s.free := rfl
end emit

/-! ## addJournal -/

section addJournal
variable (n : Nat)
@[simp] theorem addJournal_pending : (addJournal s n).pending = s.pending := rfl
@[simp] theorem addJournal_tick : (addJournal s n).tick = s.tick := rfl
@[simp] theorem addJournal_mode : (addJournal s n).mode = s.mode := rfl
@[simp] theorem addJournal_role : (addJournal s n).role = s.role := rfl
@[simp] theorem addJournal_par : (addJournal s n).par = s.par := rfl
@[simp] theorem addJournal_cores : (addJournal s n).cores = s.cores := rfl
@[simp] theorem addJournal_sv : (addJournal s n).sv = s.sv := rfl
@[simp] theorem addJournal_mem : (addJournal s n).mem = s.mem := rfl
@[simp] theorem addJournal_prog : (addJournal s n).prog = s.prog := rfl
@[simp] theorem addJournal_power : (addJournal s n).power = s.power := rfl
@[simp] theorem addJournal_start : (addJournal s n).start = s.start := rfl
@[simp] theorem addJournal_links : (addJournal s n).links = s.links := rfl
@[simp] theorem addJournal_enc : (addJournal s n).enc = s.enc := rfl
@[simp] theorem addJournal_loop : (addJournal s n).loop = s.loop := rfl
@[simp] theorem addJournal_bus : (addJournal s n).bus = s.bus := rfl
@[simp] theorem addJournal_dio : (addJournal s n).dio = s.dio := rfl
@[simp] theorem addJournal_panel : (addJournal s n).panel = s.panel := rfl
@[simp] theorem addJournal_rtc : (addJournal s n).rtc = s.rtc := rfl
@[simp] theorem addJournal_pair : (addJournal s n).pair = s.pair := rfl
@[simp] theorem addJournal_join : (addJournal s n).join = s.join := rfl
@[simp] theorem addJournal_evr : (addJournal s n).evr = s.evr := rfl
@[simp] theorem addJournal_wdg : (addJournal s n).wdg = s.wdg := rfl
@[simp] theorem addJournal_host : (addJournal s n).host = s.host := rfl
@[simp] theorem addJournal_upd : (addJournal s n).upd = s.upd := rfl
@[simp] theorem addJournal_trust : (addJournal s n).trust = s.trust := rfl
@[simp] theorem addJournal_exch : (addJournal s n).exch = s.exch := rfl
@[simp] theorem addJournal_out : (addJournal s n).out = s.out := rfl
@[simp] theorem addJournal_free : (addJournal s n).free = s.free := rfl
end addJournal

@[simp] theorem setNow_now (t : Nat) : (setNow s t).tick.now = max s.tick.now t := rfl
@[simp] theorem emit_out (o : Out) : (emit s o).out = o :: s.out := rfl

end Sys2Proof.Machine
end

