-- ==== Sys2Proof/Laws/Words.lean ====
section
/-! SUPPORT. Laws of the parameter words and of the event queue: what a write reads as, and what it leaves. -/

namespace Sys2Proof.Machine

variable (s : State) (k : Nat)

/-! ## What a write of a word leaves -/

@[simp] theorem sw_pending (v : Word) : (sw s k v).pending = s.pending := by unfold sw; split <;> rfl
@[simp] theorem sw_tick (v : Word) : (sw s k v).tick = s.tick := by unfold sw; split <;> rfl
@[simp] theorem sw_mode (v : Word) : (sw s k v).mode = s.mode := by unfold sw; split <;> rfl
@[simp] theorem sw_role (v : Word) : (sw s k v).role = s.role := by unfold sw; split <;> rfl
@[simp] theorem sw_cores (v : Word) : (sw s k v).cores = s.cores := by unfold sw; split <;> rfl
@[simp] theorem sw_sv (v : Word) : (sw s k v).sv = s.sv := by unfold sw; split <;> rfl
@[simp] theorem sw_mem (v : Word) : (sw s k v).mem = s.mem := by unfold sw; split <;> rfl
@[simp] theorem sw_prog (v : Word) : (sw s k v).prog = s.prog := by unfold sw; split <;> rfl
@[simp] theorem sw_power (v : Word) : (sw s k v).power = s.power := by unfold sw; split <;> rfl
@[simp] theorem sw_start (v : Word) : (sw s k v).start = s.start := by unfold sw; split <;> rfl
@[simp] theorem sw_links (v : Word) : (sw s k v).links = s.links := by unfold sw; split <;> rfl
@[simp] theorem sw_enc (v : Word) : (sw s k v).enc = s.enc := by unfold sw; split <;> rfl
@[simp] theorem sw_loop (v : Word) : (sw s k v).loop = s.loop := by unfold sw; split <;> rfl
@[simp] theorem sw_bus (v : Word) : (sw s k v).bus = s.bus := by unfold sw; split <;> rfl
@[simp] theorem sw_dio (v : Word) : (sw s k v).dio = s.dio := by unfold sw; split <;> rfl
@[simp] theorem sw_panel (v : Word) : (sw s k v).panel = s.panel := by unfold sw; split <;> rfl
@[simp] theorem sw_rtc (v : Word) : (sw s k v).rtc = s.rtc := by unfold sw; split <;> rfl
@[simp] theorem sw_pair (v : Word) : (sw s k v).pair = s.pair := by unfold sw; split <;> rfl
@[simp] theorem sw_join (v : Word) : (sw s k v).join = s.join := by unfold sw; split <;> rfl
@[simp] theorem sw_evr (v : Word) : (sw s k v).evr = s.evr := by unfold sw; split <;> rfl
@[simp] theorem sw_wdg (v : Word) : (sw s k v).wdg = s.wdg := by unfold sw; split <;> rfl
@[simp] theorem sw_host (v : Word) : (sw s k v).host = s.host := by unfold sw; split <;> rfl
@[simp] theorem sw_upd (v : Word) : (sw s k v).upd = s.upd := by unfold sw; split <;> rfl
@[simp] theorem sw_trust (v : Word) : (sw s k v).trust = s.trust := by unfold sw; split <;> rfl
@[simp] theorem sw_exch (v : Word) : (sw s k v).exch = s.exch := by unfold sw; split <;> rfl
@[simp] theorem sw_out (v : Word) : (sw s k v).out = s.out := by unfold sw; split <;> rfl
@[simp] theorem sw_free (v : Word) : (sw s k v).free = s.free := by unfold sw; split <;> rfl

@[simp] theorem sn_pending (v : Nat) : (sn s k v).pending = s.pending := by simp [sn]
@[simp] theorem sn_tick (v : Nat) : (sn s k v).tick = s.tick := by simp [sn]
@[simp] theorem sn_mode (v : Nat) : (sn s k v).mode = s.mode := by simp [sn]
@[simp] theorem sn_role (v : Nat) : (sn s k v).role = s.role := by simp [sn]
@[simp] theorem sn_cores (v : Nat) : (sn s k v).cores = s.cores := by simp [sn]
@[simp] theorem sn_sv (v : Nat) : (sn s k v).sv = s.sv := by simp [sn]
@[simp] theorem sn_mem (v : Nat) : (sn s k v).mem = s.mem := by simp [sn]
@[simp] theorem sn_prog (v : Nat) : (sn s k v).prog = s.prog := by simp [sn]
@[simp] theorem sn_power (v : Nat) : (sn s k v).power = s.power := by simp [sn]
@[simp] theorem sn_start (v : Nat) : (sn s k v).start = s.start := by simp [sn]
@[simp] theorem sn_links (v : Nat) : (sn s k v).links = s.links := by simp [sn]
@[simp] theorem sn_enc (v : Nat) : (sn s k v).enc = s.enc := by simp [sn]
@[simp] theorem sn_loop (v : Nat) : (sn s k v).loop = s.loop := by simp [sn]
@[simp] theorem sn_bus (v : Nat) : (sn s k v).bus = s.bus := by simp [sn]
@[simp] theorem sn_dio (v : Nat) : (sn s k v).dio = s.dio := by simp [sn]
@[simp] theorem sn_panel (v : Nat) : (sn s k v).panel = s.panel := by simp [sn]
@[simp] theorem sn_rtc (v : Nat) : (sn s k v).rtc = s.rtc := by simp [sn]
@[simp] theorem sn_pair (v : Nat) : (sn s k v).pair = s.pair := by simp [sn]
@[simp] theorem sn_join (v : Nat) : (sn s k v).join = s.join := by simp [sn]
@[simp] theorem sn_evr (v : Nat) : (sn s k v).evr = s.evr := by simp [sn]
@[simp] theorem sn_wdg (v : Nat) : (sn s k v).wdg = s.wdg := by simp [sn]
@[simp] theorem sn_host (v : Nat) : (sn s k v).host = s.host := by simp [sn]
@[simp] theorem sn_upd (v : Nat) : (sn s k v).upd = s.upd := by simp [sn]
@[simp] theorem sn_trust (v : Nat) : (sn s k v).trust = s.trust := by simp [sn]
@[simp] theorem sn_exch (v : Nat) : (sn s k v).exch = s.exch := by simp [sn]
@[simp] theorem sn_out (v : Nat) : (sn s k v).out = s.out := by simp [sn]
@[simp] theorem sn_free (v : Nat) : (sn s k v).free = s.free := by simp [sn]

@[simp] theorem orw_pending (m : Word) : (orw s k m).pending = s.pending := by simp [orw]
@[simp] theorem orw_tick (m : Word) : (orw s k m).tick = s.tick := by simp [orw]
@[simp] theorem orw_mode (m : Word) : (orw s k m).mode = s.mode := by simp [orw]
@[simp] theorem orw_role (m : Word) : (orw s k m).role = s.role := by simp [orw]
@[simp] theorem orw_cores (m : Word) : (orw s k m).cores = s.cores := by simp [orw]
@[simp] theorem orw_sv (m : Word) : (orw s k m).sv = s.sv := by simp [orw]
@[simp] theorem orw_mem (m : Word) : (orw s k m).mem = s.mem := by simp [orw]
@[simp] theorem orw_prog (m : Word) : (orw s k m).prog = s.prog := by simp [orw]
@[simp] theorem orw_power (m : Word) : (orw s k m).power = s.power := by simp [orw]
@[simp] theorem orw_start (m : Word) : (orw s k m).start = s.start := by simp [orw]
@[simp] theorem orw_links (m : Word) : (orw s k m).links = s.links := by simp [orw]
@[simp] theorem orw_enc (m : Word) : (orw s k m).enc = s.enc := by simp [orw]
@[simp] theorem orw_loop (m : Word) : (orw s k m).loop = s.loop := by simp [orw]
@[simp] theorem orw_bus (m : Word) : (orw s k m).bus = s.bus := by simp [orw]
@[simp] theorem orw_dio (m : Word) : (orw s k m).dio = s.dio := by simp [orw]
@[simp] theorem orw_panel (m : Word) : (orw s k m).panel = s.panel := by simp [orw]
@[simp] theorem orw_rtc (m : Word) : (orw s k m).rtc = s.rtc := by simp [orw]
@[simp] theorem orw_pair (m : Word) : (orw s k m).pair = s.pair := by simp [orw]
@[simp] theorem orw_join (m : Word) : (orw s k m).join = s.join := by simp [orw]
@[simp] theorem orw_evr (m : Word) : (orw s k m).evr = s.evr := by simp [orw]
@[simp] theorem orw_wdg (m : Word) : (orw s k m).wdg = s.wdg := by simp [orw]
@[simp] theorem orw_host (m : Word) : (orw s k m).host = s.host := by simp [orw]
@[simp] theorem orw_upd (m : Word) : (orw s k m).upd = s.upd := by simp [orw]
@[simp] theorem orw_trust (m : Word) : (orw s k m).trust = s.trust := by simp [orw]
@[simp] theorem orw_exch (m : Word) : (orw s k m).exch = s.exch := by simp [orw]
@[simp] theorem orw_out (m : Word) : (orw s k m).out = s.out := by simp [orw]
@[simp] theorem orw_free (m : Word) : (orw s k m).free = s.free := by simp [orw]

@[simp] theorem clrw_pending (m : Word) : (clrw s k m).pending = s.pending := by simp [clrw]
@[simp] theorem clrw_tick (m : Word) : (clrw s k m).tick = s.tick := by simp [clrw]
@[simp] theorem clrw_mode (m : Word) : (clrw s k m).mode = s.mode := by simp [clrw]
@[simp] theorem clrw_role (m : Word) : (clrw s k m).role = s.role := by simp [clrw]
@[simp] theorem clrw_cores (m : Word) : (clrw s k m).cores = s.cores := by simp [clrw]
@[simp] theorem clrw_sv (m : Word) : (clrw s k m).sv = s.sv := by simp [clrw]
@[simp] theorem clrw_mem (m : Word) : (clrw s k m).mem = s.mem := by simp [clrw]
@[simp] theorem clrw_prog (m : Word) : (clrw s k m).prog = s.prog := by simp [clrw]
@[simp] theorem clrw_power (m : Word) : (clrw s k m).power = s.power := by simp [clrw]
@[simp] theorem clrw_start (m : Word) : (clrw s k m).start = s.start := by simp [clrw]
@[simp] theorem clrw_links (m : Word) : (clrw s k m).links = s.links := by simp [clrw]
@[simp] theorem clrw_enc (m : Word) : (clrw s k m).enc = s.enc := by simp [clrw]
@[simp] theorem clrw_loop (m : Word) : (clrw s k m).loop = s.loop := by simp [clrw]
@[simp] theorem clrw_bus (m : Word) : (clrw s k m).bus = s.bus := by simp [clrw]
@[simp] theorem clrw_dio (m : Word) : (clrw s k m).dio = s.dio := by simp [clrw]
@[simp] theorem clrw_panel (m : Word) : (clrw s k m).panel = s.panel := by simp [clrw]
@[simp] theorem clrw_rtc (m : Word) : (clrw s k m).rtc = s.rtc := by simp [clrw]
@[simp] theorem clrw_pair (m : Word) : (clrw s k m).pair = s.pair := by simp [clrw]
@[simp] theorem clrw_join (m : Word) : (clrw s k m).join = s.join := by simp [clrw]
@[simp] theorem clrw_evr (m : Word) : (clrw s k m).evr = s.evr := by simp [clrw]
@[simp] theorem clrw_wdg (m : Word) : (clrw s k m).wdg = s.wdg := by simp [clrw]
@[simp] theorem clrw_host (m : Word) : (clrw s k m).host = s.host := by simp [clrw]
@[simp] theorem clrw_upd (m : Word) : (clrw s k m).upd = s.upd := by simp [clrw]
@[simp] theorem clrw_trust (m : Word) : (clrw s k m).trust = s.trust := by simp [clrw]
@[simp] theorem clrw_exch (m : Word) : (clrw s k m).exch = s.exch := by simp [clrw]
@[simp] theorem clrw_out (m : Word) : (clrw s k m).out = s.out := by simp [clrw]
@[simp] theorem clrw_free (m : Word) : (clrw s k m).free = s.free := by simp [clrw]

@[simp] theorem putBit_pending (i : Nat) (v : Bool) : (putBit s k i v).pending = s.pending := by simp [putBit]
@[simp] theorem putBit_tick (i : Nat) (v : Bool) : (putBit s k i v).tick = s.tick := by simp [putBit]
@[simp] theorem putBit_mode (i : Nat) (v : Bool) : (putBit s k i v).mode = s.mode := by simp [putBit]
@[simp] theorem putBit_role (i : Nat) (v : Bool) : (putBit s k i v).role = s.role := by simp [putBit]
@[simp] theorem putBit_cores (i : Nat) (v : Bool) : (putBit s k i v).cores = s.cores := by simp [putBit]
@[simp] theorem putBit_sv (i : Nat) (v : Bool) : (putBit s k i v).sv = s.sv := by simp [putBit]
@[simp] theorem putBit_mem (i : Nat) (v : Bool) : (putBit s k i v).mem = s.mem := by simp [putBit]
@[simp] theorem putBit_prog (i : Nat) (v : Bool) : (putBit s k i v).prog = s.prog := by simp [putBit]
@[simp] theorem putBit_power (i : Nat) (v : Bool) : (putBit s k i v).power = s.power := by simp [putBit]
@[simp] theorem putBit_start (i : Nat) (v : Bool) : (putBit s k i v).start = s.start := by simp [putBit]
@[simp] theorem putBit_links (i : Nat) (v : Bool) : (putBit s k i v).links = s.links := by simp [putBit]
@[simp] theorem putBit_enc (i : Nat) (v : Bool) : (putBit s k i v).enc = s.enc := by simp [putBit]
@[simp] theorem putBit_loop (i : Nat) (v : Bool) : (putBit s k i v).loop = s.loop := by simp [putBit]
@[simp] theorem putBit_bus (i : Nat) (v : Bool) : (putBit s k i v).bus = s.bus := by simp [putBit]
@[simp] theorem putBit_dio (i : Nat) (v : Bool) : (putBit s k i v).dio = s.dio := by simp [putBit]
@[simp] theorem putBit_panel (i : Nat) (v : Bool) : (putBit s k i v).panel = s.panel := by simp [putBit]
@[simp] theorem putBit_rtc (i : Nat) (v : Bool) : (putBit s k i v).rtc = s.rtc := by simp [putBit]
@[simp] theorem putBit_pair (i : Nat) (v : Bool) : (putBit s k i v).pair = s.pair := by simp [putBit]
@[simp] theorem putBit_join (i : Nat) (v : Bool) : (putBit s k i v).join = s.join := by simp [putBit]
@[simp] theorem putBit_evr (i : Nat) (v : Bool) : (putBit s k i v).evr = s.evr := by simp [putBit]
@[simp] theorem putBit_wdg (i : Nat) (v : Bool) : (putBit s k i v).wdg = s.wdg := by simp [putBit]
@[simp] theorem putBit_host (i : Nat) (v : Bool) : (putBit s k i v).host = s.host := by simp [putBit]
@[simp] theorem putBit_upd (i : Nat) (v : Bool) : (putBit s k i v).upd = s.upd := by simp [putBit]
@[simp] theorem putBit_trust (i : Nat) (v : Bool) : (putBit s k i v).trust = s.trust := by simp [putBit]
@[simp] theorem putBit_exch (i : Nat) (v : Bool) : (putBit s k i v).exch = s.exch := by simp [putBit]
@[simp] theorem putBit_out (i : Nat) (v : Bool) : (putBit s k i v).out = s.out := by simp [putBit]
@[simp] theorem putBit_free (i : Nat) (v : Bool) : (putBit s k i v).free = s.free := by simp [putBit]

@[simp] theorem bump_pending (n : Nat) : (bump s k n).pending = s.pending := by simp [bump]
@[simp] theorem bump_tick (n : Nat) : (bump s k n).tick = s.tick := by simp [bump]
@[simp] theorem bump_mode (n : Nat) : (bump s k n).mode = s.mode := by simp [bump]
@[simp] theorem bump_role (n : Nat) : (bump s k n).role = s.role := by simp [bump]
@[simp] theorem bump_cores (n : Nat) : (bump s k n).cores = s.cores := by simp [bump]
@[simp] theorem bump_sv (n : Nat) : (bump s k n).sv = s.sv := by simp [bump]
@[simp] theorem bump_mem (n : Nat) : (bump s k n).mem = s.mem := by simp [bump]
@[simp] theorem bump_prog (n : Nat) : (bump s k n).prog = s.prog := by simp [bump]
@[simp] theorem bump_power (n : Nat) : (bump s k n).power = s.power := by simp [bump]
@[simp] theorem bump_start (n : Nat) : (bump s k n).start = s.start := by simp [bump]
@[simp] theorem bump_links (n : Nat) : (bump s k n).links = s.links := by simp [bump]
@[simp] theorem bump_enc (n : Nat) : (bump s k n).enc = s.enc := by simp [bump]
@[simp] theorem bump_loop (n : Nat) : (bump s k n).loop = s.loop := by simp [bump]
@[simp] theorem bump_bus (n : Nat) : (bump s k n).bus = s.bus := by simp [bump]
@[simp] theorem bump_dio (n : Nat) : (bump s k n).dio = s.dio := by simp [bump]
@[simp] theorem bump_panel (n : Nat) : (bump s k n).panel = s.panel := by simp [bump]
@[simp] theorem bump_rtc (n : Nat) : (bump s k n).rtc = s.rtc := by simp [bump]
@[simp] theorem bump_pair (n : Nat) : (bump s k n).pair = s.pair := by simp [bump]
@[simp] theorem bump_join (n : Nat) : (bump s k n).join = s.join := by simp [bump]
@[simp] theorem bump_evr (n : Nat) : (bump s k n).evr = s.evr := by simp [bump]
@[simp] theorem bump_wdg (n : Nat) : (bump s k n).wdg = s.wdg := by simp [bump]
@[simp] theorem bump_host (n : Nat) : (bump s k n).host = s.host := by simp [bump]
@[simp] theorem bump_upd (n : Nat) : (bump s k n).upd = s.upd := by simp [bump]
@[simp] theorem bump_trust (n : Nat) : (bump s k n).trust = s.trust := by simp [bump]
@[simp] theorem bump_exch (n : Nat) : (bump s k n).exch = s.exch := by simp [bump]
@[simp] theorem bump_out (n : Nat) : (bump s k n).out = s.out := by simp [bump]
@[simp] theorem bump_free (n : Nat) : (bump s k n).free = s.free := by simp [bump]

@[simp] theorem maxw_pending (v : Nat) : (maxw s k v).pending = s.pending := by unfold maxw; split <;> simp
@[simp] theorem maxw_tick (v : Nat) : (maxw s k v).tick = s.tick := by unfold maxw; split <;> simp
@[simp] theorem maxw_mode (v : Nat) : (maxw s k v).mode = s.mode := by unfold maxw; split <;> simp
@[simp] theorem maxw_role (v : Nat) : (maxw s k v).role = s.role := by unfold maxw; split <;> simp
@[simp] theorem maxw_cores (v : Nat) : (maxw s k v).cores = s.cores := by unfold maxw; split <;> simp
@[simp] theorem maxw_sv (v : Nat) : (maxw s k v).sv = s.sv := by unfold maxw; split <;> simp
@[simp] theorem maxw_mem (v : Nat) : (maxw s k v).mem = s.mem := by unfold maxw; split <;> simp
@[simp] theorem maxw_prog (v : Nat) : (maxw s k v).prog = s.prog := by unfold maxw; split <;> simp
@[simp] theorem maxw_power (v : Nat) : (maxw s k v).power = s.power := by unfold maxw; split <;> simp
@[simp] theorem maxw_start (v : Nat) : (maxw s k v).start = s.start := by unfold maxw; split <;> simp
@[simp] theorem maxw_links (v : Nat) : (maxw s k v).links = s.links := by unfold maxw; split <;> simp
@[simp] theorem maxw_enc (v : Nat) : (maxw s k v).enc = s.enc := by unfold maxw; split <;> simp
@[simp] theorem maxw_loop (v : Nat) : (maxw s k v).loop = s.loop := by unfold maxw; split <;> simp
@[simp] theorem maxw_bus (v : Nat) : (maxw s k v).bus = s.bus := by unfold maxw; split <;> simp
@[simp] theorem maxw_dio (v : Nat) : (maxw s k v).dio = s.dio := by unfold maxw; split <;> simp
@[simp] theorem maxw_panel (v : Nat) : (maxw s k v).panel = s.panel := by unfold maxw; split <;> simp
@[simp] theorem maxw_rtc (v : Nat) : (maxw s k v).rtc = s.rtc := by unfold maxw; split <;> simp
@[simp] theorem maxw_pair (v : Nat) : (maxw s k v).pair = s.pair := by unfold maxw; split <;> simp
@[simp] theorem maxw_join (v : Nat) : (maxw s k v).join = s.join := by unfold maxw; split <;> simp
@[simp] theorem maxw_evr (v : Nat) : (maxw s k v).evr = s.evr := by unfold maxw; split <;> simp
@[simp] theorem maxw_wdg (v : Nat) : (maxw s k v).wdg = s.wdg := by unfold maxw; split <;> simp
@[simp] theorem maxw_host (v : Nat) : (maxw s k v).host = s.host := by unfold maxw; split <;> simp
@[simp] theorem maxw_upd (v : Nat) : (maxw s k v).upd = s.upd := by unfold maxw; split <;> simp
@[simp] theorem maxw_trust (v : Nat) : (maxw s k v).trust = s.trust := by unfold maxw; split <;> simp
@[simp] theorem maxw_exch (v : Nat) : (maxw s k v).exch = s.exch := by unfold maxw; split <;> simp
@[simp] theorem maxw_out (v : Nat) : (maxw s k v).out = s.out := by unfold maxw; split <;> simp
@[simp] theorem maxw_free (v : Nat) : (maxw s k v).free = s.free := by unfold maxw; split <;> simp

/-! ## What an event leaves -/

@[simp] theorem pushOcc_pending (o : Occ) : (pushOcc s o).pending = s.pending := by unfold pushOcc; split <;> simp
@[simp] theorem pushOcc_tick (o : Occ) : (pushOcc s o).tick = s.tick := by unfold pushOcc; split <;> simp
@[simp] theorem pushOcc_mode (o : Occ) : (pushOcc s o).mode = s.mode := by unfold pushOcc; split <;> simp
@[simp] theorem pushOcc_role (o : Occ) : (pushOcc s o).role = s.role := by unfold pushOcc; split <;> simp
@[simp] theorem pushOcc_cores (o : Occ) : (pushOcc s o).cores = s.cores := by unfold pushOcc; split <;> simp
@[simp] theorem pushOcc_sv (o : Occ) : (pushOcc s o).sv = s.sv := by unfold pushOcc; split <;> simp
@[simp] theorem pushOcc_mem (o : Occ) : (pushOcc s o).mem = s.mem := by unfold pushOcc; split <;> simp
@[simp] theorem pushOcc_prog (o : Occ) : (pushOcc s o).prog = s.prog := by unfold pushOcc; split <;> simp
@[simp] theorem pushOcc_power (o : Occ) : (pushOcc s o).power = s.power := by unfold pushOcc; split <;> simp
@[simp] theorem pushOcc_start (o : Occ) : (pushOcc s o).start = s.start := by unfold pushOcc; split <;> simp
@[simp] theorem pushOcc_links (o : Occ) : (pushOcc s o).links = s.links := by unfold pushOcc; split <;> simp
@[simp] theorem pushOcc_enc (o : Occ) : (pushOcc s o).enc = s.enc := by unfold pushOcc; split <;> simp
@[simp] theorem pushOcc_loop (o : Occ) : (pushOcc s o).loop = s.loop := by unfold pushOcc; split <;> simp
@[simp] theorem pushOcc_bus (o : Occ) : (pushOcc s o).bus = s.bus := by unfold pushOcc; split <;> simp
@[simp] theorem pushOcc_dio (o : Occ) : (pushOcc s o).dio = s.dio := by unfold pushOcc; split <;> simp
@[simp] theorem pushOcc_panel (o : Occ) : (pushOcc s o).panel = s.panel := by unfold pushOcc; split <;> simp
@[simp] theorem pushOcc_rtc (o : Occ) : (pushOcc s o).rtc = s.rtc := by unfold pushOcc; split <;> simp
@[simp] theorem pushOcc_pair (o : Occ) : (pushOcc s o).pair = s.pair := by unfold pushOcc; split <;> simp
@[simp] theorem pushOcc_join (o : Occ) : (pushOcc s o).join = s.join := by unfold pushOcc; split <;> simp
@[simp] theorem pushOcc_wdg (o : Occ) : (pushOcc s o).wdg = s.wdg := by unfold pushOcc; split <;> simp
@[simp] theorem pushOcc_host (o : Occ) : (pushOcc s o).host = s.host := by unfold pushOcc; split <;> simp
@[simp] theorem pushOcc_upd (o : Occ) : (pushOcc s o).upd = s.upd := by unfold pushOcc; split <;> simp
@[simp] theorem pushOcc_trust (o : Occ) : (pushOcc s o).trust = s.trust := by unfold pushOcc; split <;> simp
@[simp] theorem pushOcc_exch (o : Occ) : (pushOcc s o).exch = s.exch := by unfold pushOcc; split <;> simp
@[simp] theorem pushOcc_out (o : Occ) : (pushOcc s o).out = s.out := by unfold pushOcc; split <;> simp
@[simp] theorem pushOcc_free (o : Occ) : (pushOcc s o).free = s.free := by unfold pushOcc; split <;> simp

@[simp] theorem ev_pending (code : Nat) (pay : List Byte) : (ev s code pay).pending = s.pending := by simp [ev]
@[simp] theorem ev_tick (code : Nat) (pay : List Byte) : (ev s code pay).tick = s.tick := by simp [ev]
@[simp] theorem ev_mode (code : Nat) (pay : List Byte) : (ev s code pay).mode = s.mode := by simp [ev]
@[simp] theorem ev_role (code : Nat) (pay : List Byte) : (ev s code pay).role = s.role := by simp [ev]
@[simp] theorem ev_cores (code : Nat) (pay : List Byte) : (ev s code pay).cores = s.cores := by simp [ev]
@[simp] theorem ev_sv (code : Nat) (pay : List Byte) : (ev s code pay).sv = s.sv := by simp [ev]
@[simp] theorem ev_mem (code : Nat) (pay : List Byte) : (ev s code pay).mem = s.mem := by simp [ev]
@[simp] theorem ev_prog (code : Nat) (pay : List Byte) : (ev s code pay).prog = s.prog := by simp [ev]
@[simp] theorem ev_power (code : Nat) (pay : List Byte) : (ev s code pay).power = s.power := by simp [ev]
@[simp] theorem ev_start (code : Nat) (pay : List Byte) : (ev s code pay).start = s.start := by simp [ev]
@[simp] theorem ev_links (code : Nat) (pay : List Byte) : (ev s code pay).links = s.links := by simp [ev]
@[simp] theorem ev_enc (code : Nat) (pay : List Byte) : (ev s code pay).enc = s.enc := by simp [ev]
@[simp] theorem ev_loop (code : Nat) (pay : List Byte) : (ev s code pay).loop = s.loop := by simp [ev]
@[simp] theorem ev_bus (code : Nat) (pay : List Byte) : (ev s code pay).bus = s.bus := by simp [ev]
@[simp] theorem ev_dio (code : Nat) (pay : List Byte) : (ev s code pay).dio = s.dio := by simp [ev]
@[simp] theorem ev_panel (code : Nat) (pay : List Byte) : (ev s code pay).panel = s.panel := by simp [ev]
@[simp] theorem ev_rtc (code : Nat) (pay : List Byte) : (ev s code pay).rtc = s.rtc := by simp [ev]
@[simp] theorem ev_pair (code : Nat) (pay : List Byte) : (ev s code pay).pair = s.pair := by simp [ev]
@[simp] theorem ev_join (code : Nat) (pay : List Byte) : (ev s code pay).join = s.join := by simp [ev]
@[simp] theorem ev_wdg (code : Nat) (pay : List Byte) : (ev s code pay).wdg = s.wdg := by simp [ev]
@[simp] theorem ev_host (code : Nat) (pay : List Byte) : (ev s code pay).host = s.host := by simp [ev]
@[simp] theorem ev_upd (code : Nat) (pay : List Byte) : (ev s code pay).upd = s.upd := by simp [ev]
@[simp] theorem ev_trust (code : Nat) (pay : List Byte) : (ev s code pay).trust = s.trust := by simp [ev]
@[simp] theorem ev_exch (code : Nat) (pay : List Byte) : (ev s code pay).exch = s.exch := by simp [ev]
@[simp] theorem ev_out (code : Nat) (pay : List Byte) : (ev s code pay).out = s.out := by simp [ev]
@[simp] theorem ev_free (code : Nat) (pay : List Byte) : (ev s code pay).free = s.free := by simp [ev]

@[simp] theorem evb_pending (code : Nat) (pay : List Byte) : (evb s code pay).pending = s.pending := by simp [evb]
@[simp] theorem evb_tick (code : Nat) (pay : List Byte) : (evb s code pay).tick = s.tick := by simp [evb]
@[simp] theorem evb_mode (code : Nat) (pay : List Byte) : (evb s code pay).mode = s.mode := by simp [evb]
@[simp] theorem evb_role (code : Nat) (pay : List Byte) : (evb s code pay).role = s.role := by simp [evb]
@[simp] theorem evb_cores (code : Nat) (pay : List Byte) : (evb s code pay).cores = s.cores := by simp [evb]
@[simp] theorem evb_sv (code : Nat) (pay : List Byte) : (evb s code pay).sv = s.sv := by simp [evb]
@[simp] theorem evb_mem (code : Nat) (pay : List Byte) : (evb s code pay).mem = s.mem := by simp [evb]
@[simp] theorem evb_prog (code : Nat) (pay : List Byte) : (evb s code pay).prog = s.prog := by simp [evb]
@[simp] theorem evb_power (code : Nat) (pay : List Byte) : (evb s code pay).power = s.power := by simp [evb]
@[simp] theorem evb_start (code : Nat) (pay : List Byte) : (evb s code pay).start = s.start := by simp [evb]
@[simp] theorem evb_links (code : Nat) (pay : List Byte) : (evb s code pay).links = s.links := by simp [evb]
@[simp] theorem evb_enc (code : Nat) (pay : List Byte) : (evb s code pay).enc = s.enc := by simp [evb]
@[simp] theorem evb_loop (code : Nat) (pay : List Byte) : (evb s code pay).loop = s.loop := by simp [evb]
@[simp] theorem evb_bus (code : Nat) (pay : List Byte) : (evb s code pay).bus = s.bus := by simp [evb]
@[simp] theorem evb_dio (code : Nat) (pay : List Byte) : (evb s code pay).dio = s.dio := by simp [evb]
@[simp] theorem evb_panel (code : Nat) (pay : List Byte) : (evb s code pay).panel = s.panel := by simp [evb]
@[simp] theorem evb_rtc (code : Nat) (pay : List Byte) : (evb s code pay).rtc = s.rtc := by simp [evb]
@[simp] theorem evb_pair (code : Nat) (pay : List Byte) : (evb s code pay).pair = s.pair := by simp [evb]
@[simp] theorem evb_join (code : Nat) (pay : List Byte) : (evb s code pay).join = s.join := by simp [evb]
@[simp] theorem evb_wdg (code : Nat) (pay : List Byte) : (evb s code pay).wdg = s.wdg := by simp [evb]
@[simp] theorem evb_host (code : Nat) (pay : List Byte) : (evb s code pay).host = s.host := by simp [evb]
@[simp] theorem evb_upd (code : Nat) (pay : List Byte) : (evb s code pay).upd = s.upd := by simp [evb]
@[simp] theorem evb_trust (code : Nat) (pay : List Byte) : (evb s code pay).trust = s.trust := by simp [evb]
@[simp] theorem evb_exch (code : Nat) (pay : List Byte) : (evb s code pay).exch = s.exch := by simp [evb]
@[simp] theorem evb_out (code : Nat) (pay : List Byte) : (evb s code pay).out = s.out := by simp [evb]
@[simp] theorem evb_free (code : Nat) (pay : List Byte) : (evb s code pay).free = s.free := by simp [evb]

/-! ## What a word reads as after a write -/

theorem rw_sw_other {s : State} {k q : Nat} (h : k ≠ q) (v : Word) : rw (sw s k v) q = rw s q := by
  unfold rw sw
  cases hk : isRetWord k <;> cases hq : isRetWord q <;> simp [kvGet_kvSet_other _ h]

theorem rw_sw_self {s : State} (h : WordsWf s) (k : Nat) (v : Word) : rw (sw s k v) k = v := by
  unfold rw sw
  cases hk : isRetWord k
  · simpa [hk] using kvGet_kvSet_self h.1 k v
  · simpa [hk] using kvGet_kvSet_self h.2 k v

/-- The same for a value other than the reset value, whatever the lists. -/
theorem rw_sw_ne (s : State) (k : Nat) {v : Word} (h : v ≠ resetWord k) : rw (sw s k v) k = v := by
  unfold rw sw
  cases hk : isRetWord k <;> simp [hk, kvGet_kvSet_ne _ k h]

/-- A write of a word keeps the lists of words by rising address. -/
theorem wordsWf_sw {s : State} (h : WordsWf s) (k : Nat) (v : Word) : WordsWf (sw s k v) := by
  unfold sw
  split
  · exact ⟨h.1, pairwise_kvSet h.2 k v⟩
  · exact ⟨pairwise_kvSet h.1 k v, h.2⟩

theorem parWf_sw {s : State} (h : ParWf s) (k : Nat) (v : Word) : ParWf (sw s k v) := by
  unfold sw
  split
  · exact h
  · exact pairwise_kvSet h k v

/-- Words with the same lists read the same. -/
theorem rw_congr {s t : State} (hp : t.par = s.par) (hw : t.ret.x.words = s.ret.x.words) (k : Nat) : rw t k = rw s k := by
  unfold rw; rw [hp, hw]

theorem rw_bump_self {s : State} (h : WordsWf s) (k n : Nat) : rw (bump s k n) k = satInc (rw s k) n := rw_sw_self h _ _

theorem rw_orw_self {s : State} (h : WordsWf s) (k : Nat) (m : Word) : rw (orw s k m) k = rw s k ||| m := rw_sw_self h _ _

/-- A saturating count never falls (R17). -/
theorem le_satInc (v : Word) (n : Nat) : v.toNat ≤ (satInc v n).toNat := by
  unfold satInc
  simp only [BitVec.toNat_ofNat]
  have := v.isLt
  omega

/-! ## The event queue (R513) -/

/-- All that an occurrence does: it enters the queue of 64, or is counted as lost. -/
theorem pushOcc_cases (s : State) (o : Occ) :
    (s.evr.queue.length < 64 ∧ pushOcc s o = { s with evr := { s.evr with queue := s.evr.queue ++ [o] } }) ∨
    (64 ≤ s.evr.queue.length ∧ pushOcc s o = { bump s K.WDG_REC_FLT_CNT with evr := { s.evr with gap := true } }) := by
  unfold pushOcc
  split
  · exact .inl ⟨‹_›, rfl⟩
  · exact .inr ⟨by omega, rfl⟩

/-- The queue never grows beyond 64. -/
theorem pushOcc_queue_le {s : State} (h : s.evr.queue.length ≤ 64) (o : Occ) : (pushOcc s o).evr.queue.length ≤ 64 := by
  rcases pushOcc_cases s o with ⟨hq, he⟩ | ⟨hq, he⟩ <;> rw [he] <;> simp <;> omega

theorem pushOcc_ring (s : State) (o : Occ) : (pushOcc s o).evr.ring = s.evr.ring := by unfold pushOcc; split <;> rfl

theorem parWf_pushOcc {s : State} (h : ParWf s) (o : Occ) : ParWf (pushOcc s o) := by
  rcases pushOcc_cases s o with ⟨hq, he⟩ | ⟨hq, he⟩ <;> rw [he]
  · exact h
  · exact parWf_sw h _ _

theorem pushOcc_home (s : State) (o : Occ) : (pushOcc s o).ret.home = s.ret.home := by
  unfold pushOcc bump sw
  split
  · rfl
  · dsimp only; split <;> rfl


end Sys2Proof.Machine
end

