-- ==== Sys2Proof/Laws/Memory.lean ====
section
/-! SUPPORT. Laws of the memories (R35, R36, R192) and of the fault classes (R496 to R499). -/

namespace Sys2Proof.Machine

variable (s : State)

/-! ## Memory -/

theorem reset_mem_wf : State.reset.mem.wf = true := rfl

/-- All that a byte write does: nothing where the byte stands already, else the byte and a dirty line. -/
theorem writeByte_cases (s : State) (p : Nat) (v : Byte) :
    (cellGet 0 s.mem.cells p = v ∧ writeByte s p v = s) ∨
    ∃ d, writeByte s p v = { s with mem := { s.mem with cells := cellSet 0 s.mem.cells p v, dirty := d } } := by
  unfold writeByte
  split
  · exact .inl ⟨‹_›, rfl⟩
  · exact .inr ⟨_, rfl⟩

theorem writeByte_wf {s : State} (h : s.mem.wf = true) (p : Nat) (v : Byte) : (writeByte s p v).mem.wf = true := by
  rcases writeByte_cases s p v with ⟨_, e⟩ | ⟨d, e⟩ <;> rw [e]
  · exact h
  · exact cellsWf_cellSet h p v

/-- The byte written reads back, and every other byte as before. -/
theorem writeByte_get {s : State} (h : s.mem.wf = true) (p : Nat) (v : Byte) (q : Nat) :
    cellGet 0 (writeByte s p v).mem.cells q = if p = q then v else cellGet 0 s.mem.cells q := by
  rcases writeByte_cases s p v with ⟨hv, e⟩ | ⟨d, e⟩ <;> rw [e]
  · split
    · rename_i hp; rw [← hp, hv]
    · rfl
  · exact cellGet_cellSet h p q v

/-- A byte write changes the cells and the dirty set only. -/
theorem writeByte_frame (s : State) (p : Nat) (v : Byte) :
    ∃ c d, writeByte s p v = { s with mem := { s.mem with cells := c, dirty := d } } := by
  rcases writeByte_cases s p v with ⟨_, e⟩ | ⟨d, e⟩
  · exact ⟨s.mem.cells, s.mem.dirty, e⟩
  · exact ⟨_, d, e⟩

theorem writeMem_wf {s : State} (h : s.mem.wf = true) (p : Nat) (b : List Byte) : (writeMem s p b).mem.wf = true := by
  induction b generalizing s p with
  | nil => exact h
  | cons v r ih => exact ih (writeByte_wf h p v) (p + 1)

/-- The bytes written read back at their addresses, and every other byte as before. -/
theorem writeMem_get {s : State} (h : s.mem.wf = true) (p : Nat) (b : List Byte) (q : Nat) :
    cellGet 0 (writeMem s p b).mem.cells q = if p ≤ q ∧ q < p + b.length then b.getD (q - p) 0 else cellGet 0 s.mem.cells q := by
  induction b generalizing s p with
  | nil => simp [writeMem]
  | cons v r ih =>
    rw [writeMem, ih (writeByte_wf h p v), writeByte_get h]
    by_cases hq : p + 1 ≤ q ∧ q < p + 1 + r.length
    · rw [if_pos hq, if_pos (by simp; omega)]
      obtain ⟨k, rfl⟩ : ∃ k, q = p + 1 + k := ⟨q - (p + 1), by omega⟩
      rw [show p + 1 + k - (p + 1) = k by omega, show p + 1 + k - p = k + 1 by omega]
      simp
    · rw [if_neg hq]
      by_cases hp : p = q
      · subst hp; simp
      · rw [if_neg hp, if_neg (by simp; omega)]

/-- A write of bytes changes the cells and the dirty set only. -/
theorem writeMem_frame (s : State) (p : Nat) (b : List Byte) :
    ∃ c d, writeMem s p b = { s with mem := { s.mem with cells := c, dirty := d } } := by
  induction b generalizing s p with
  | nil => exact ⟨s.mem.cells, s.mem.dirty, rfl⟩
  | cons v r ih =>
    obtain ⟨c, d, e⟩ := writeByte_frame s p v
    obtain ⟨c', d', e'⟩ := ih (writeByte s p v) (p + 1)
    exact ⟨c', d', by rw [writeMem, e', e]⟩

/-- Held stores taking effect change the cells and the dirty set, and no store is held any more (R35). -/
theorem flushStores_frame (s : State) :
    ∃ c d, flushStores s = { s with mem := { s.mem with cells := c, dirty := d, stq := [] } } := by
  have key : ∀ (l : List Store) (s : State), ∃ c d, l.foldl (fun s t => writeMem s t.addr t.bytes) s =
      { s with mem := { s.mem with cells := c, dirty := d } } := by
    intro l
    induction l with
    | nil => exact fun s => ⟨s.mem.cells, s.mem.dirty, rfl⟩
    | cons t r ih =>
      intro s
      obtain ⟨c, d, e⟩ := writeMem_frame s t.addr t.bytes
      obtain ⟨c', d', e'⟩ := ih (writeMem s t.addr t.bytes)
      exact ⟨c', d', by rw [List.foldl_cons, e', e]⟩
  obtain ⟨c, d, e⟩ := key s.mem.stq s
  exact ⟨c, d, by unfold flushStores; rw [e]⟩

theorem flushStores_wf {s : State} (h : s.mem.wf = true) : (flushStores s).mem.wf = true := by
  have key : ∀ (l : List Store) (s : State), s.mem.wf = true → (l.foldl (fun s t => writeMem s t.addr t.bytes) s).mem.wf = true := by
    intro l
    induction l with
    | nil => exact fun s h => h
    | cons t r ih => exact fun s h => ih _ (writeMem_wf h t.addr t.bytes)
  exact key s.mem.stq s h


/-! ## What a fault leaves -/

@[simp] theorem beginHandling_pending (cls code unit wdt : Nat) : (beginHandling s cls code unit wdt).pending = s.pending := rfl
@[simp] theorem beginHandling_tick (cls code unit wdt : Nat) : (beginHandling s cls code unit wdt).tick = s.tick := rfl
@[simp] theorem beginHandling_mode (cls code unit wdt : Nat) : (beginHandling s cls code unit wdt).mode = s.mode := rfl
@[simp] theorem beginHandling_role (cls code unit wdt : Nat) : (beginHandling s cls code unit wdt).role = s.role := rfl
@[simp] theorem beginHandling_par (cls code unit wdt : Nat) : (beginHandling s cls code unit wdt).par = s.par := rfl
@[simp] theorem beginHandling_cores (cls code unit wdt : Nat) : (beginHandling s cls code unit wdt).cores = s.cores := rfl
@[simp] theorem beginHandling_sv (cls code unit wdt : Nat) : (beginHandling s cls code unit wdt).sv = s.sv := rfl
@[simp] theorem beginHandling_mem (cls code unit wdt : Nat) : (beginHandling s cls code unit wdt).mem = s.mem := rfl
@[simp] theorem beginHandling_prog (cls code unit wdt : Nat) : (beginHandling s cls code unit wdt).prog = s.prog := rfl
@[simp] theorem beginHandling_ret (cls code unit wdt : Nat) : (beginHandling s cls code unit wdt).ret = s.ret := rfl
@[simp] theorem beginHandling_power (cls code unit wdt : Nat) : (beginHandling s cls code unit wdt).power = s.power := rfl
@[simp] theorem beginHandling_start (cls code unit wdt : Nat) : (beginHandling s cls code unit wdt).start = s.start := rfl
@[simp] theorem beginHandling_links (cls code unit wdt : Nat) : (beginHandling s cls code unit wdt).links = s.links := rfl
@[simp] theorem beginHandling_enc (cls code unit wdt : Nat) : (beginHandling s cls code unit wdt).enc = s.enc := rfl
@[simp] theorem beginHandling_loop (cls code unit wdt : Nat) : (beginHandling s cls code unit wdt).loop = s.loop := rfl
@[simp] theorem beginHandling_bus (cls code unit wdt : Nat) : (beginHandling s cls code unit wdt).bus = s.bus := rfl
@[simp] theorem beginHandling_dio (cls code unit wdt : Nat) : (beginHandling s cls code unit wdt).dio = s.dio := rfl
@[simp] theorem beginHandling_panel (cls code unit wdt : Nat) : (beginHandling s cls code unit wdt).panel = s.panel := rfl
@[simp] theorem beginHandling_rtc (cls code unit wdt : Nat) : (beginHandling s cls code unit wdt).rtc = s.rtc := rfl
@[simp] theorem beginHandling_pair (cls code unit wdt : Nat) : (beginHandling s cls code unit wdt).pair = s.pair := rfl
@[simp] theorem beginHandling_join (cls code unit wdt : Nat) : (beginHandling s cls code unit wdt).join = s.join := rfl
@[simp] theorem beginHandling_evr (cls code unit wdt : Nat) : (beginHandling s cls code unit wdt).evr = s.evr := rfl
@[simp] theorem beginHandling_host (cls code unit wdt : Nat) : (beginHandling s cls code unit wdt).host = s.host := rfl
@[simp] theorem beginHandling_upd (cls code unit wdt : Nat) : (beginHandling s cls code unit wdt).upd = s.upd := rfl
@[simp] theorem beginHandling_trust (cls code unit wdt : Nat) : (beginHandling s cls code unit wdt).trust = s.trust := rfl
@[simp] theorem beginHandling_exch (cls code unit wdt : Nat) : (beginHandling s cls code unit wdt).exch = s.exch := rfl
@[simp] theorem beginHandling_out (cls code unit wdt : Nat) : (beginHandling s cls code unit wdt).out = s.out := rfl
@[simp] theorem beginHandling_free (cls code unit wdt : Nat) : (beginHandling s cls code unit wdt).free = s.free := rfl

@[simp] theorem queueFault_pending (cls code unit : Nat) : (queueFault s cls code unit).pending = s.pending := by unfold queueFault; split <;> simp
@[simp] theorem queueFault_tick (cls code unit : Nat) : (queueFault s cls code unit).tick = s.tick := by unfold queueFault; split <;> simp
@[simp] theorem queueFault_mode (cls code unit : Nat) : (queueFault s cls code unit).mode = s.mode := by unfold queueFault; split <;> simp
@[simp] theorem queueFault_role (cls code unit : Nat) : (queueFault s cls code unit).role = s.role := by unfold queueFault; split <;> simp
@[simp] theorem queueFault_cores (cls code unit : Nat) : (queueFault s cls code unit).cores = s.cores := by unfold queueFault; split <;> simp
@[simp] theorem queueFault_sv (cls code unit : Nat) : (queueFault s cls code unit).sv = s.sv := by unfold queueFault; split <;> simp
@[simp] theorem queueFault_mem (cls code unit : Nat) : (queueFault s cls code unit).mem = s.mem := by unfold queueFault; split <;> simp
@[simp] theorem queueFault_prog (cls code unit : Nat) : (queueFault s cls code unit).prog = s.prog := by unfold queueFault; split <;> simp
@[simp] theorem queueFault_power (cls code unit : Nat) : (queueFault s cls code unit).power = s.power := by unfold queueFault; split <;> simp
@[simp] theorem queueFault_start (cls code unit : Nat) : (queueFault s cls code unit).start = s.start := by unfold queueFault; split <;> simp
@[simp] theorem queueFault_links (cls code unit : Nat) : (queueFault s cls code unit).links = s.links := by unfold queueFault; split <;> simp
@[simp] theorem queueFault_enc (cls code unit : Nat) : (queueFault s cls code unit).enc = s.enc := by unfold queueFault; split <;> simp
@[simp] theorem queueFault_loop (cls code unit : Nat) : (queueFault s cls code unit).loop = s.loop := by unfold queueFault; split <;> simp
@[simp] theorem queueFault_bus (cls code unit : Nat) : (queueFault s cls code unit).bus = s.bus := by unfold queueFault; split <;> simp
@[simp] theorem queueFault_dio (cls code unit : Nat) : (queueFault s cls code unit).dio = s.dio := by unfold queueFault; split <;> simp
@[simp] theorem queueFault_panel (cls code unit : Nat) : (queueFault s cls code unit).panel = s.panel := by unfold queueFault; split <;> simp
@[simp] theorem queueFault_rtc (cls code unit : Nat) : (queueFault s cls code unit).rtc = s.rtc := by unfold queueFault; split <;> simp
@[simp] theorem queueFault_pair (cls code unit : Nat) : (queueFault s cls code unit).pair = s.pair := by unfold queueFault; split <;> simp
@[simp] theorem queueFault_join (cls code unit : Nat) : (queueFault s cls code unit).join = s.join := by unfold queueFault; split <;> simp
@[simp] theorem queueFault_host (cls code unit : Nat) : (queueFault s cls code unit).host = s.host := by unfold queueFault; split <;> simp
@[simp] theorem queueFault_upd (cls code unit : Nat) : (queueFault s cls code unit).upd = s.upd := by unfold queueFault; split <;> simp
@[simp] theorem queueFault_trust (cls code unit : Nat) : (queueFault s cls code unit).trust = s.trust := by unfold queueFault; split <;> simp
@[simp] theorem queueFault_exch (cls code unit : Nat) : (queueFault s cls code unit).exch = s.exch := by unfold queueFault; split <;> simp
@[simp] theorem queueFault_out (cls code unit : Nat) : (queueFault s cls code unit).out = s.out := by unfold queueFault; split <;> simp
@[simp] theorem queueFault_free (cls code unit : Nat) : (queueFault s cls code unit).free = s.free := by unfold queueFault; split <;> simp

@[simp] theorem abandonHandling_pending (h : Handling) (cls : Nat) : (abandonHandling s h cls).pending = s.pending := by simp [abandonHandling]
@[simp] theorem abandonHandling_tick (h : Handling) (cls : Nat) : (abandonHandling s h cls).tick = s.tick := by simp [abandonHandling]
@[simp] theorem abandonHandling_mode (h : Handling) (cls : Nat) : (abandonHandling s h cls).mode = s.mode := by simp [abandonHandling]
@[simp] theorem abandonHandling_role (h : Handling) (cls : Nat) : (abandonHandling s h cls).role = s.role := by simp [abandonHandling]
@[simp] theorem abandonHandling_cores (h : Handling) (cls : Nat) : (abandonHandling s h cls).cores = s.cores := by simp [abandonHandling]
@[simp] theorem abandonHandling_sv (h : Handling) (cls : Nat) : (abandonHandling s h cls).sv = s.sv := by simp [abandonHandling]
@[simp] theorem abandonHandling_mem (h : Handling) (cls : Nat) : (abandonHandling s h cls).mem = s.mem := by simp [abandonHandling]
@[simp] theorem abandonHandling_prog (h : Handling) (cls : Nat) : (abandonHandling s h cls).prog = s.prog := by simp [abandonHandling]
@[simp] theorem abandonHandling_power (h : Handling) (cls : Nat) : (abandonHandling s h cls).power = s.power := by simp [abandonHandling]
@[simp] theorem abandonHandling_start (h : Handling) (cls : Nat) : (abandonHandling s h cls).start = s.start := by simp [abandonHandling]
@[simp] theorem abandonHandling_links (h : Handling) (cls : Nat) : (abandonHandling s h cls).links = s.links := by simp [abandonHandling]
@[simp] theorem abandonHandling_enc (h : Handling) (cls : Nat) : (abandonHandling s h cls).enc = s.enc := by simp [abandonHandling]
@[simp] theorem abandonHandling_loop (h : Handling) (cls : Nat) : (abandonHandling s h cls).loop = s.loop := by simp [abandonHandling]
@[simp] theorem abandonHandling_bus (h : Handling) (cls : Nat) : (abandonHandling s h cls).bus = s.bus := by simp [abandonHandling]
@[simp] theorem abandonHandling_dio (h : Handling) (cls : Nat) : (abandonHandling s h cls).dio = s.dio := by simp [abandonHandling]
@[simp] theorem abandonHandling_panel (h : Handling) (cls : Nat) : (abandonHandling s h cls).panel = s.panel := by simp [abandonHandling]
@[simp] theorem abandonHandling_rtc (h : Handling) (cls : Nat) : (abandonHandling s h cls).rtc = s.rtc := by simp [abandonHandling]
@[simp] theorem abandonHandling_pair (h : Handling) (cls : Nat) : (abandonHandling s h cls).pair = s.pair := by simp [abandonHandling]
@[simp] theorem abandonHandling_join (h : Handling) (cls : Nat) : (abandonHandling s h cls).join = s.join := by simp [abandonHandling]
@[simp] theorem abandonHandling_host (h : Handling) (cls : Nat) : (abandonHandling s h cls).host = s.host := by simp [abandonHandling]
@[simp] theorem abandonHandling_upd (h : Handling) (cls : Nat) : (abandonHandling s h cls).upd = s.upd := by simp [abandonHandling]
@[simp] theorem abandonHandling_trust (h : Handling) (cls : Nat) : (abandonHandling s h cls).trust = s.trust := by simp [abandonHandling]
@[simp] theorem abandonHandling_exch (h : Handling) (cls : Nat) : (abandonHandling s h cls).exch = s.exch := by simp [abandonHandling]
@[simp] theorem abandonHandling_out (h : Handling) (cls : Nat) : (abandonHandling s h cls).out = s.out := by simp [abandonHandling]
@[simp] theorem abandonHandling_free (h : Handling) (cls : Nat) : (abandonHandling s h cls).free = s.free := by simp [abandonHandling]

@[simp] theorem raiseAt_pending (cls code unit wdt : Nat) : (raiseAt s cls code unit wdt).pending = s.pending := by unfold raiseAt; (repeat' split) <;> simp
@[simp] theorem raiseAt_tick (cls code unit wdt : Nat) : (raiseAt s cls code unit wdt).tick = s.tick := by unfold raiseAt; (repeat' split) <;> simp
@[simp] theorem raiseAt_mode (cls code unit wdt : Nat) : (raiseAt s cls code unit wdt).mode = s.mode := by unfold raiseAt; (repeat' split) <;> simp
@[simp] theorem raiseAt_role (cls code unit wdt : Nat) : (raiseAt s cls code unit wdt).role = s.role := by unfold raiseAt; (repeat' split) <;> simp
@[simp] theorem raiseAt_cores (cls code unit wdt : Nat) : (raiseAt s cls code unit wdt).cores = s.cores := by unfold raiseAt; (repeat' split) <;> simp
@[simp] theorem raiseAt_sv (cls code unit wdt : Nat) : (raiseAt s cls code unit wdt).sv = s.sv := by unfold raiseAt; (repeat' split) <;> simp
@[simp] theorem raiseAt_mem (cls code unit wdt : Nat) : (raiseAt s cls code unit wdt).mem = s.mem := by unfold raiseAt; (repeat' split) <;> simp
@[simp] theorem raiseAt_prog (cls code unit wdt : Nat) : (raiseAt s cls code unit wdt).prog = s.prog := by unfold raiseAt; (repeat' split) <;> simp
@[simp] theorem raiseAt_power (cls code unit wdt : Nat) : (raiseAt s cls code unit wdt).power = s.power := by unfold raiseAt; (repeat' split) <;> simp
@[simp] theorem raiseAt_start (cls code unit wdt : Nat) : (raiseAt s cls code unit wdt).start = s.start := by unfold raiseAt; (repeat' split) <;> simp
@[simp] theorem raiseAt_links (cls code unit wdt : Nat) : (raiseAt s cls code unit wdt).links = s.links := by unfold raiseAt; (repeat' split) <;> simp
@[simp] theorem raiseAt_enc (cls code unit wdt : Nat) : (raiseAt s cls code unit wdt).enc = s.enc := by unfold raiseAt; (repeat' split) <;> simp
@[simp] theorem raiseAt_loop (cls code unit wdt : Nat) : (raiseAt s cls code unit wdt).loop = s.loop := by unfold raiseAt; (repeat' split) <;> simp
@[simp] theorem raiseAt_bus (cls code unit wdt : Nat) : (raiseAt s cls code unit wdt).bus = s.bus := by unfold raiseAt; (repeat' split) <;> simp
@[simp] theorem raiseAt_dio (cls code unit wdt : Nat) : (raiseAt s cls code unit wdt).dio = s.dio := by unfold raiseAt; (repeat' split) <;> simp
@[simp] theorem raiseAt_panel (cls code unit wdt : Nat) : (raiseAt s cls code unit wdt).panel = s.panel := by unfold raiseAt; (repeat' split) <;> simp
@[simp] theorem raiseAt_rtc (cls code unit wdt : Nat) : (raiseAt s cls code unit wdt).rtc = s.rtc := by unfold raiseAt; (repeat' split) <;> simp
@[simp] theorem raiseAt_pair (cls code unit wdt : Nat) : (raiseAt s cls code unit wdt).pair = s.pair := by unfold raiseAt; (repeat' split) <;> simp
@[simp] theorem raiseAt_join (cls code unit wdt : Nat) : (raiseAt s cls code unit wdt).join = s.join := by unfold raiseAt; (repeat' split) <;> simp
@[simp] theorem raiseAt_host (cls code unit wdt : Nat) : (raiseAt s cls code unit wdt).host = s.host := by unfold raiseAt; (repeat' split) <;> simp
@[simp] theorem raiseAt_upd (cls code unit wdt : Nat) : (raiseAt s cls code unit wdt).upd = s.upd := by unfold raiseAt; (repeat' split) <;> simp
@[simp] theorem raiseAt_trust (cls code unit wdt : Nat) : (raiseAt s cls code unit wdt).trust = s.trust := by unfold raiseAt; (repeat' split) <;> simp
@[simp] theorem raiseAt_exch (cls code unit wdt : Nat) : (raiseAt s cls code unit wdt).exch = s.exch := by unfold raiseAt; (repeat' split) <;> simp
@[simp] theorem raiseAt_out (cls code unit wdt : Nat) : (raiseAt s cls code unit wdt).out = s.out := by unfold raiseAt; (repeat' split) <;> simp
@[simp] theorem raiseAt_free (cls code unit wdt : Nat) : (raiseAt s cls code unit wdt).free = s.free := by unfold raiseAt; (repeat' split) <;> simp

@[simp] theorem raise_pending (cls code unit : Nat) : (raise s cls code unit).pending = s.pending := by simp [raise]
@[simp] theorem raise_tick (cls code unit : Nat) : (raise s cls code unit).tick = s.tick := by simp [raise]
@[simp] theorem raise_mode (cls code unit : Nat) : (raise s cls code unit).mode = s.mode := by simp [raise]
@[simp] theorem raise_role (cls code unit : Nat) : (raise s cls code unit).role = s.role := by simp [raise]
@[simp] theorem raise_cores (cls code unit : Nat) : (raise s cls code unit).cores = s.cores := by simp [raise]
@[simp] theorem raise_sv (cls code unit : Nat) : (raise s cls code unit).sv = s.sv := by simp [raise]
@[simp] theorem raise_mem (cls code unit : Nat) : (raise s cls code unit).mem = s.mem := by simp [raise]
@[simp] theorem raise_prog (cls code unit : Nat) : (raise s cls code unit).prog = s.prog := by simp [raise]
@[simp] theorem raise_power (cls code unit : Nat) : (raise s cls code unit).power = s.power := by simp [raise]
@[simp] theorem raise_start (cls code unit : Nat) : (raise s cls code unit).start = s.start := by simp [raise]
@[simp] theorem raise_links (cls code unit : Nat) : (raise s cls code unit).links = s.links := by simp [raise]
@[simp] theorem raise_enc (cls code unit : Nat) : (raise s cls code unit).enc = s.enc := by simp [raise]
@[simp] theorem raise_loop (cls code unit : Nat) : (raise s cls code unit).loop = s.loop := by simp [raise]
@[simp] theorem raise_bus (cls code unit : Nat) : (raise s cls code unit).bus = s.bus := by simp [raise]
@[simp] theorem raise_dio (cls code unit : Nat) : (raise s cls code unit).dio = s.dio := by simp [raise]
@[simp] theorem raise_panel (cls code unit : Nat) : (raise s cls code unit).panel = s.panel := by simp [raise]
@[simp] theorem raise_rtc (cls code unit : Nat) : (raise s cls code unit).rtc = s.rtc := by simp [raise]
@[simp] theorem raise_pair (cls code unit : Nat) : (raise s cls code unit).pair = s.pair := by simp [raise]
@[simp] theorem raise_join (cls code unit : Nat) : (raise s cls code unit).join = s.join := by simp [raise]
@[simp] theorem raise_host (cls code unit : Nat) : (raise s cls code unit).host = s.host := by simp [raise]
@[simp] theorem raise_upd (cls code unit : Nat) : (raise s cls code unit).upd = s.upd := by simp [raise]
@[simp] theorem raise_trust (cls code unit : Nat) : (raise s cls code unit).trust = s.trust := by simp [raise]
@[simp] theorem raise_exch (cls code unit : Nat) : (raise s cls code unit).exch = s.exch := by simp [raise]
@[simp] theorem raise_out (cls code unit : Nat) : (raise s cls code unit).out = s.out := by simp [raise]
@[simp] theorem raise_free (cls code unit : Nat) : (raise s cls code unit).free = s.free := by simp [raise]


/-- All that a fault does to the handling in progress (R498): it begins one, queues behind it, widens it or takes it over. -/
theorem raiseAt_handling (s : State) (cls code unit wdt : Nat) : (raiseAt s cls code unit wdt).wdg.h.isSome = true := by
  unfold raiseAt
  cases hh : s.wdg.h with
  | none => simp [beginHandling]
  | some h =>
    dsimp only
    split
    · unfold queueFault; split <;> simp [hh, evb, pushOcc_wdg]
    · split
      · split <;> simp
      · simp [beginHandling]

theorem parWf_ev {s : State} (h : ParWf s) (code : Nat) (pay : List Byte) : ParWf (ev s code pay) := parWf_pushOcc h _

/-- A read with its error check leaves every byte of memory (R36, R111). -/
theorem eccRead_cells (s : State) (p port c : Nat) : (eccRead s p port c).mem.cells = s.mem.cells := by
  have h : (eccFind s p).mem.cells = s.mem.cells := by unfold eccFind; dsimp only; split <;> (try split) <;> (try split) <;> rfl
  unfold eccRead
  dsimp only
  split
  · exact h
  · split <;> simp [h]


end Sys2Proof.Machine
end

