-- ==== Sys2Proof/Laws/Canonical.lean ====
section
/-! SUPPORT. The canonical form of the byte stores and of the list of parameter words is kept by the shared operations. -/

namespace Sys2Proof

open Machine

theorem canonical_reset : Canonical State.reset := ⟨rfl, rfl, rfl, List.Pairwise.nil⟩

/-- The form depends on four parts of the state. -/
theorem Canonical.congr {s t : State} (h : Canonical s) (h1 : t.mem.cells = s.mem.cells) (h2 : t.ret.home = s.ret.home)
    (h3 : t.evr.ring = s.evr.ring) (h4 : t.par = s.par) : Canonical t := by
  unfold Canonical ParWf at *; rw [h1, h2, h3, h4]; exact h

theorem Canonical.withWdg {s : State} (h : Canonical s) (w : Wdg) : Canonical { s with wdg := w } := h
theorem Canonical.withFree {s : State} (h : Canonical s) (n : Nat) : Canonical { s with free := n } := h
theorem Canonical.withCores {s : State} (h : Canonical s) (v : Vector Core 8) : Canonical { s with cores := v } := h
theorem Canonical.withMem {s : State} (h : Canonical s) {m : Memory} (hm : m.cells = s.mem.cells) : Canonical { s with mem := m } :=
  h.congr hm rfl rfl rfl

theorem Canonical.sw {s : State} (h : Canonical s) (k : Nat) (v : Word) : Canonical (sw s k v) := by
  refine ⟨by rw [sw_mem]; exact h.1, ?_, by rw [sw_evr]; exact h.2.2.1, parWf_sw h.2.2.2 k v⟩
  unfold Machine.sw; split <;> exact h.2.1

theorem Canonical.sn {s : State} (h : Canonical s) (k v : Nat) : Canonical (sn s k v) := h.sw _ _
theorem Canonical.orw {s : State} (h : Canonical s) (k : Nat) (m : Word) : Canonical (orw s k m) := h.sw _ _
theorem Canonical.clrw {s : State} (h : Canonical s) (k : Nat) (m : Word) : Canonical (clrw s k m) := h.sw _ _
theorem Canonical.putBit {s : State} (h : Canonical s) (k i : Nat) (v : Bool) : Canonical (putBit s k i v) := h.sw _ _
theorem Canonical.bump {s : State} (h : Canonical s) (k n : Nat) : Canonical (bump s k n) := h.sw _ _
theorem Canonical.maxw {s : State} (h : Canonical s) (k v : Nat) : Canonical (maxw s k v) := by unfold Machine.maxw; split <;> [exact h.sn _ _; exact h]

theorem Canonical.pushOcc {s : State} (h : Canonical s) (o : Occ) : Canonical (pushOcc s o) :=
  ⟨by rw [pushOcc_mem]; exact h.1, by rw [pushOcc_home]; exact h.2.1, by rw [pushOcc_ring]; exact h.2.2.1, parWf_pushOcc h.2.2.2 o⟩

theorem Canonical.ev {s : State} (h : Canonical s) (code : Nat) (pay : List Byte) : Canonical (ev s code pay) := h.pushOcc _
theorem Canonical.evb {s : State} (h : Canonical s) (code : Nat) (pay : List Byte) : Canonical (evb s code pay) := h.pushOcc _

theorem Canonical.evFree {s : State} (h : Canonical s) (code : Nat) (pre post : List Byte) : Canonical (evFree s code pre post) :=
  (h.withFree _).ev _ _

theorem Canonical.queueFault {s : State} (h : Canonical s) (cls code unit : Nat) : Canonical (queueFault s cls code unit) := by
  unfold Machine.queueFault
  split
  · exact h.withWdg _
  · exact (((h.withWdg _).bump _ _).orw _ _).evb _ _

theorem Canonical.abandonHandling {s : State} (h : Canonical s) (q : Handling) (cls : Nat) : Canonical (abandonHandling s q cls) :=
  (((h.withWdg _).bump _ _).orw _ _).ev _ _

/-- A fault of any class keeps the form. -/
theorem Canonical.raiseAt {s : State} (h : Canonical s) (cls code unit wdt : Nat) : Canonical (raiseAt s cls code unit wdt) := by
  unfold Machine.raiseAt
  split
  · exact h.congr rfl rfl rfl rfl
  · split
    · exact h.queueFault _ _ _
    · split
      · split <;> exact h.congr rfl rfl rfl rfl
      · split
        · exact h.congr rfl rfl rfl rfl
        · exact (h.abandonHandling _ _).congr rfl rfl rfl rfl

theorem Canonical.raise {s : State} (h : Canonical s) (cls code unit : Nat) : Canonical (raise s cls code unit) := h.raiseAt _ _ _ _

theorem Canonical.writeMem {s : State} (h : Canonical s) (p : Nat) (b : List Byte) : Canonical (writeMem s p b) := by
  have hw := writeMem_wf (s := s) h.1 p b
  obtain ⟨c, d, e⟩ := writeMem_frame s p b
  rw [e] at hw ⊢
  exact ⟨hw, h.2⟩

theorem Canonical.flushStores {s : State} (h : Canonical s) : Canonical (flushStores s) := by
  have hw := flushStores_wf (s := s) h.1
  obtain ⟨c, d, e⟩ := flushStores_frame s
  rw [e] at hw ⊢
  exact ⟨hw, h.2⟩

theorem Canonical.eccFind {s : State} (h : Canonical s) (p : Nat) : Canonical (eccFind s p) := by
  unfold Machine.eccFind
  dsimp only
  split
  · exact h
  · split
    · exact h.withMem rfl
    · split
      · exact h.withMem rfl
      · exact h

theorem Canonical.eccRead {s : State} (h : Canonical s) (p port c : Nat) : Canonical (eccRead s p port c) := by
  unfold Machine.eccRead
  dsimp only
  split
  · exact h.eccFind p
  · split
    · exact ((h.eccFind p).ev _ _).raise _ _ _
    · exact (h.eccFind p).raise _ _ _

/-- A fault of a core keeps the form. -/
theorem Canonical.coreFault {s : State} (h : Canonical s) (c : CoreId) (code seg ofs : Nat) : Canonical (coreFault s c code seg ofs) := by
  unfold Machine.coreFault
  split
  · exact ((h.ev _ _).withCores _).withCores _
  · have h2 : ∀ pay (f : Core → Core) k, Canonical (Machine.bump ((Machine.ev s code pay).updCore c f) k) :=
      fun pay f k => ((h.ev code pay).withCores _).bump k 1
    dsimp only
    split
    · exact ((h2 _ _ _).withCores _).raise _ _ _
    · exact ((h2 _ _ _).withCores _).raise _ _ _

theorem Canonical.localError {s : State} (h : Canonical s) (c : CoreId) (l : List Nat) : Canonical (localError s c l) := by
  have hl : ∀ q : State, Canonical q → Canonical (l.foldl Machine.eccFind q) := by
    induction l with
    | nil => exact fun _ hq => hq
    | cons p l ih => exact fun q hq => ih _ (hq.eccFind p)
  exact ((hl s h).raise _ _ _).coreFault _ _ _ _

end Sys2Proof
end

