-- ==== Sys2Proof/Laws/Cores.lean ====
section
/-! SUPPORT. Laws of a core's registers, of the results in flight (R99, R100) and of the issue of an instruction. -/

namespace Sys2Proof.Machine

/-! ## Registers -/

@[simp] theorem Ctx.rg_zero (x : Ctx) : x.rg 0 = 0 := rfl
@[simp] theorem Ctx.rbit_zero (x : Ctx) : x.rbit 0 = true := rfl

theorem Ctx.rg_wg (x : Ctx) (r q : RegNo) (v : Word) : (x.wg r v).rg q = if q = r ∧ r ≠ 0 then v else x.rg q := by
  unfold Ctx.rg Ctx.wg
  by_cases hr : r = 0
  · simp [hr]
  · by_cases hq : q = r
    · subst hq; simp [hr]
    · have : r.val ≠ q.val := fun e => hq (Fin.ext e.symm)
      simp [hr, hq, this]

theorem Ctx.rbit_wb (x : Ctx) (r q : RegNo) (v : Bool) : (x.wb r v).rbit q = if q = r ∧ r ≠ 0 then v else x.rbit q := by
  unfold Ctx.rbit Ctx.wb
  by_cases hr : r = 0
  · simp [hr]
  · by_cases hq : q = r
    · subst hq; simp [hr]
    · have : r.val ≠ q.val := fun e => hq (Fin.ext e.symm)
      simp [hr, hq, this]

/-- A completing result leaves the PC, the link stack, the waiting transfer and the results in flight. -/
theorem Ctx.complete_rest (x : Ctx) (r : Res) :
    (x.complete r).pc = x.pc ∧ (x.complete r).link = x.link ∧ (x.complete r).delay = x.delay ∧ (x.complete r).flight = x.flight := by
  cases r <;> simp only [Ctx.complete, Ctx.wg, Ctx.wb] <;> (try split) <;> simp

theorem Ctx.completeAll_rest (x : Ctx) (l : List Flight) :
    (x.completeAll l).pc = x.pc ∧ (x.completeAll l).link = x.link ∧ (x.completeAll l).delay = x.delay ∧
      (x.completeAll l).flight = x.flight := by
  induction l generalizing x with
  | nil => simp [Ctx.completeAll]
  | cons f r ih =>
    obtain ⟨h1, h2, h3, h4⟩ := ih (x.complete f.res)
    obtain ⟨g1, g2, g3, g4⟩ := x.complete_rest f.res
    exact ⟨h1.trans g1, h2.trans g2, h3.trans g3, h4.trans g4⟩

@[simp] theorem Ctx.settle_pc (x : Ctx) (j : Nat) : (x.settle j).pc = x.pc := (Ctx.completeAll_rest _ _).1
@[simp] theorem Ctx.settle_link (x : Ctx) (j : Nat) : (x.settle j).link = x.link := (Ctx.completeAll_rest _ _).2.1
@[simp] theorem Ctx.settle_delay (x : Ctx) (j : Nat) : (x.settle j).delay = x.delay := (Ctx.completeAll_rest _ _).2.2.1
@[simp] theorem Ctx.settle_flight (x : Ctx) (j : Nat) : (x.settle j).flight = x.flight.dropWhile fun f => f.due ≤ j := rfl

end Sys2Proof.Machine

namespace Sys2Proof

open Machine

/-! ## Registers alone -/

theorem SameRegs.refl (x : Ctx) : SameRegs x x := ⟨rfl, rfl, rfl, rfl, rfl⟩
theorem SameRegs.symm {x y : Ctx} (h : SameRegs x y) : SameRegs y x := ⟨h.1.symm, h.2.1.symm, h.2.2.1.symm, h.2.2.2.1.symm, h.2.2.2.2.symm⟩
theorem SameRegs.trans {x y z : Ctx} (h : SameRegs x y) (k : SameRegs y z) : SameRegs x z :=
  ⟨h.1.trans k.1, h.2.1.trans k.2.1, h.2.2.1.trans k.2.2.1, h.2.2.2.1.trans k.2.2.2.1, h.2.2.2.2.trans k.2.2.2.2⟩

/-- What completes depends on the registers alone. -/
theorem SameRegs.complete {x y : Ctx} (h : SameRegs x y) (r : Res) : SameRegs (x.complete r) (y.complete r) := by
  obtain ⟨h1, h2, h3, h4, h5⟩ := h
  cases r <;> simp only [Ctx.complete, Ctx.wg, Ctx.wb] <;> (try split) <;> simp_all [SameRegs]

theorem SameRegs.completeAll {x y : Ctx} (h : SameRegs x y) (l : List Flight) : SameRegs (x.completeAll l) (y.completeAll l) := by
  induction l generalizing x y with
  | nil => exact h
  | cons f r ih => exact ih (h.complete f.res)

theorem SameRegs.foldl {x y : Ctx} (h : SameRegs x y) (l : List Res) : SameRegs (l.foldl Ctx.complete x) (l.foldl Ctx.complete y) := by
  induction l generalizing x y with
  | nil => exact h
  | cons f r ih => exact ih (h.complete f)

end Sys2Proof

namespace Sys2Proof.Machine

theorem Ctx.completeAll_append (x : Ctx) (l m : List Flight) : x.completeAll (l ++ m) = (x.completeAll l).completeAll m := by
  induction l generalizing x with
  | nil => rfl
  | cons f r ih => exact ih _

/-- The registers in cycle `j` are those results of `x` in flight that are due, completed in order. -/
theorem Ctx.settle_regs (x : Ctx) (j : Nat) : SameRegs (x.settle j) (x.completeAll (x.flight.takeWhile fun f => f.due ≤ j)) := by
  have : SameRegs (({ x with flight := [] } : Ctx).completeAll (x.flight.takeWhile fun f => f.due ≤ j))
      (x.completeAll (x.flight.takeWhile fun f => f.due ≤ j)) :=
    SameRegs.completeAll (x := { x with flight := [] }) (y := x) ⟨rfl, rfl, rfl, rfl, rfl⟩ _
  exact SameRegs.trans ⟨rfl, rfl, rfl, rfl, rfl⟩ this

theorem takeWhile_split {i j : Nat} (h : i ≤ j) (l : List Flight) :
    (l.takeWhile fun f => decide (f.due ≤ j)) =
      (l.takeWhile fun f => decide (f.due ≤ i)) ++ ((l.dropWhile fun f => decide (f.due ≤ i)).takeWhile fun f => decide (f.due ≤ j)) := by
  induction l with
  | nil => rfl
  | cons f r ih =>
    by_cases hf : f.due ≤ i
    · simp [hf, show f.due ≤ j by omega, ih]
    · simp [hf]

/-- Settling at an earlier cycle first makes no difference. -/
theorem Ctx.settle_settle {i j : Nat} (h : i ≤ j) (x : Ctx) : SameRegs ((x.settle i).settle j) (x.settle j) := by
  refine (Ctx.settle_regs _ j).trans (SameRegs.trans ?_ (Ctx.settle_regs x j).symm)
  rw [takeWhile_split h x.flight, Ctx.completeAll_append, Ctx.settle_flight]
  exact (Ctx.settle_regs x i).completeAll _

/-! ## Results in flight -/

/-- Before its cycle a result in flight changes nothing. -/
theorem takeWhile_insert_before {j : Nat} {f : Flight} (h : j < f.due) (l : List Flight) :
    ((insertFlight f l).takeWhile fun g => decide (g.due ≤ j)) = l.takeWhile fun g => decide (g.due ≤ j) := by
  induction l with
  | nil => simp [insertFlight, show ¬ f.due ≤ j by omega]
  | cons a r ih =>
    unfold insertFlight
    split
    · by_cases ha : a.due ≤ j
      · simp [ha, ih]
      · simp [ha]
    · simp [show ¬ f.due ≤ j by omega, show ¬ a.due ≤ j by omega]

/-- In its cycle it completes behind everything that completes by then. -/
theorem takeWhile_insert_at (f : Flight) (l : List Flight) :
    ((insertFlight f l).takeWhile fun g => decide (g.due ≤ f.due)) = (l.takeWhile fun g => decide (g.due ≤ f.due)) ++ [f] := by
  induction l with
  | nil => simp [insertFlight]
  | cons a r ih =>
    unfold insertFlight
    split
    · rename_i ha; simp [ha, ih]
    · rename_i ha; simp [ha]

/-- Results of one distance, launched in cycle `i`, in flight. -/
theorem launch_takeWhile (i d : Nat) (rs : List Res) (l : List Flight) :
    let l' := (rs.map fun r => (d, r)).foldl (fun q e => insertFlight { due := i + e.1, res := e.2 } q) l
    (∀ j, j < i + d → (l'.takeWhile fun g => decide (g.due ≤ j)) = l.takeWhile fun g => decide (g.due ≤ j)) ∧
      (l'.takeWhile fun g => decide (g.due ≤ i + d)) =
        (l.takeWhile fun g => decide (g.due ≤ i + d)) ++ rs.map fun r => { due := i + d, res := r } := by
  induction rs generalizing l with
  | nil => simp
  | cons r rs ih =>
    obtain ⟨h1, h2⟩ := ih (insertFlight { due := i + d, res := r } l)
    refine ⟨fun j hj => (h1 j hj).trans (takeWhile_insert_before hj l), h2.trans ?_⟩
    have := takeWhile_insert_at { due := i + d, res := r } l
    simp only at this
    rw [this]
    simp

theorem completeAll_map (x : Ctx) (n : Nat) (rs : List Res) :
    x.completeAll (rs.map fun r => { due := n, res := r }) = rs.foldl Ctx.complete x := by
  induction rs generalizing x with
  | nil => rfl
  | cons r rs ih => exact ih _

/-! ## The current context -/

@[simp] theorem Core.setCtx_ctx (k : Core) (x : Ctx) : (k.setCtx x).ctx = x := by
  unfold Core.setCtx Core.ctx; split <;> simp_all

@[simp] theorem Core.setCtx_inEvt (k : Core) (x : Ctx) : (k.setCtx x).inEvt = k.inEvt := by unfold Core.setCtx; split <;> rfl

@[simp] theorem Core.setCtx_cyc (k : Core) (x : Ctx) : (k.setCtx x).cyc = k.cyc := by unfold Core.setCtx; split <;> rfl

/-- What replacing the current context, the captured word and the cycle count leaves of a core. -/
theorem Core.setCtx_twice (k : Core) (x y : Ctx) (w : Word) (n : Nat) :
    let q : Core := { ({ k.setCtx x with word := w } : Core).setCtx y with cyc := n }
    q = { k with task := q.task, evt := q.evt, cyc := q.cyc, word := q.word } ∧
      (if k.inEvt then q.task = k.task else q.evt = k.evt) := by
  cases k with
  | mk st task evt pos slot inEvt =>
    cases inEvt <;> simp [Core.setCtx]

/-- Core `c` after an update of it, and every other core. -/
theorem updCore_get (s : State) (c k : CoreId) (f : Core → Core) :
    (s.updCore c f).cores[k] = if c = k then f s.cores[c] else s.cores[k] := by
  by_cases h : c = k
  · subst h; simp
  · have : c.val ≠ k.val := fun e => h (Fin.ext e)
    simp [h, this]

/-- Two updates of one core are one. -/
theorem updCore_updCore (s : State) (c : CoreId) (f g : Core → Core) : (s.updCore c f).updCore c g = s.updCore c (g ∘ f) := by
  have : (s.updCore c f).cores[c] = f s.cores[c] := by rw [updCore_get, if_pos rfl]
  unfold State.updCore at *
  simp_all

/-! ## Issue -/

/-- All that the issue of an instruction can do (R83, R91, R104, R111): nothing on a core that cannot issue, a fetch fault, the
instruction's own fault, an operand's error, or its effect. -/
theorem issue_cases (s : State) (c : CoreId) (i : Instr) (f : Ctx → EOut) :
    let x := issueCtx s c
    let s1 := s.updCore c fun k => { k.setCtx x with word := (encode i).getD 0 }
    (canIssue s c = false ∧ issue s c i f = s) ∨
    (∃ code seg ofs, issue s c i f = coreFault s1 c code seg ofs) ∨ (∃ p, issue s c i f = localError s1 c p) ∨
    (∃ e, f x = .ok e ∧ issue s c i f = applyEff s1 c x e) := by
  intro x s1
  unfold issue
  by_cases hc : canIssue s c = true
  · right
    rw [if_neg (by simp [hc])]
    dsimp only
    split
    · exact .inl ⟨0x2007, 0, 0, rfl⟩
    · split
      · exact .inr (.inl ⟨_, rfl⟩)
      · cases hf : f (issueCtx s c) with
        | fault code seg ofs => exact .inl ⟨code, seg, ofs, rfl⟩
        | ok e =>
          dsimp only
          split
          · exact .inr (.inl ⟨e.reads, rfl⟩)
          · exact .inr (.inr ⟨e, rfl, rfl⟩)
  · left
    simp at hc
    exact ⟨hc, by simp [hc]⟩

/-- A ready core issues an instruction whose reads meet no error: its effect takes hold. -/
theorem issue_ready {s : State} {c : CoreId} (h : Ready s c) (i : Instr) {f : Ctx → EOut} {e : Eff} (hf : f (issueCtx s c) = .ok e)
    (hb : bankBad s e.reads = false) :
    issue s c i f = applyEff (s.updCore c fun k => { k.setCtx (issueCtx s c) with word := (encode i).getD 0 }) c (issueCtx s c) e := by
  obtain ⟨h1, h2, h3, h4⟩ := h
  have hb1 : ∀ (g : Core → Core) l, bankBad (s.updCore c g) l = bankBad s l := fun g l => rfl
  have ha : ∀ g : Core → Core, activeBank (s.updCore c g) c = activeBank s c := fun g => rfl
  unfold issue
  simp only [h1, Bool.not_true, Bool.false_eq_true, if_false, hb1, ha, h3, hf, hb]
  rw [if_neg (by omega)]

/-- An effect of register results alone, where no task end waits: they go in flight and one cycle passes. -/
theorem applyEff_results (s : State) (c : CoreId) {x : Ctx} (hd : ∀ at_, x.delay ≠ .endTask at_) (l : List (Nat × Res)) :
    applyEff s c x { res := l } =
      s.updCore c fun k =>
        { k.setCtx { x.launch s.cores[c].cyc l with pc := nextPc x, delay := .none, link := x.link } with cyc := k.cyc + 1 } := by
  unfold applyEff nextPc
  cases hx : x.delay with
  | endTask a => exact absurd hx (hd a)
  | none => rfl
  | jump t => rfl

/-- An instruction of a ready core that has register results of one distance and nothing else gives them. -/
theorem gives_of_issue {s : State} {c : CoreId} {i : Instr} {d : Nat} {rs : List Res} {f : Ctx → EOut} (h : Ready s c)
    (he : exec i s = .next (issue s c i f)) (hf : f (issueCtx s c) = results (rs.map fun r => (d, r))) : Gives s c i d rs := by
  have h4 := h.2.2.2
  set x := issueCtx s c with hx
  have hi := issue_ready h i hf (show bankBad s [] = false from rfl)
  have hd : ∀ at_, x.delay ≠ .endTask at_ := by intro a ha; rw [ha] at h4; simp at h4
  -- the state that the instruction leaves
  let pc := nextPc x
  let y : Ctx := { x.launch s.cores[c].cyc (rs.map fun r => (d, r)) with pc := pc, delay := .none, link := x.link }
  let g : Core → Core := fun k =>
    { ({ k.setCtx x with word := (encode i).getD 0 } : Core).setCtx y with cyc := k.cyc + 1 }
  have ht : issue s c i f = s.updCore c g := by
    have hk : (s.updCore c fun k => { k.setCtx x with word := (encode i).getD 0 }).cores[c].cyc = s.cores[c].cyc := by
      rw [updCore_get, if_pos rfl]; exact Core.setCtx_cyc _ _
    rw [hi, applyEff_results _ _ hd, updCore_updCore, hk]
    congr 1
    funext k
    simp only [g, y, pc, Function.comp, Core.setCtx_cyc, ← hx]
  have hc : (s.updCore c g).cores[c] = g s.cores[c] := by rw [updCore_get, if_pos rfl]
  have hctx : (g s.cores[c]).ctx = y := by
    simp only [g]
    exact Core.setCtx_ctx _ _
  have hfl : y.flight = (rs.map fun r => (d, r)).foldl (fun q e => insertFlight { due := s.cores[c].cyc + e.1, res := e.2 } q) x.flight := rfl
  have hyx : ∀ l, SameRegs (y.completeAll l) (x.completeAll l) := fun l => SameRegs.completeAll (x := y) (y := x) ⟨rfl, rfl, rfl, rfl, rfl⟩ l
  obtain ⟨hl1, hl2⟩ := launch_takeWhile s.cores[c].cyc d rs x.flight
  refine ⟨s.updCore c g, by rw [he, ht], ⟨rfl, fun k hk => by rw [updCore_get, if_neg (Ne.symm hk)]⟩, ⟨?_, ?_⟩, ?_, fun j h1 h2 => ?_, ?_⟩
  · rw [hc]; exact (Core.setCtx_twice _ x y _ _).1
  · rw [hc]; exact (Core.setCtx_twice _ x y _ _).2
  · refine ⟨?_, ?_, ?_, ?_⟩ <;> rw [hc]
    all_goals rw [hctx]
  · unfold regsAt
    rw [hc, hctx]
    refine (Ctx.settle_regs y j).trans ?_
    rw [hfl, hl1 j h2]
    exact (hyx _).trans ((Ctx.settle_regs x j).symm.trans (Ctx.settle_settle h1 _))
  · unfold regsAt
    rw [hc, hctx]
    refine (Ctx.settle_regs y _).trans ?_
    rw [hfl, hl2, Ctx.completeAll_append, completeAll_map]
    exact ((hyx _).trans ((Ctx.settle_regs x _).symm.trans (Ctx.settle_settle (by omega) _))).foldl rs

/-! ## Faults of a core -/

/-- A count that is raised reads one more, saturating, where its reset value is 0. -/
theorem rw_bump_of_reset (s : State) {k n : Nat} (h : resetWord k = 0) (hn : 0 < n) : rw (bump s k n) k = satInc (rw s k) n := by
  refine rw_sw_ne s k ?_
  rw [h]
  unfold satInc
  intro e
  have := congrArg BitVec.toNat e
  simp only [BitVec.toNat_ofNat] at this
  have hv := (rw s k).isLt
  simp at this
  omega

/-- FAULT_CNT of a core is 0 at reset. -/
theorem resetWord_faultCnt : ∀ c : CoreId, resetWord (K.TICKk_FAULT_CNT c) = 0 := by decide

/-- With no handling in progress a fault begins one. -/
theorem raise_first {s : State} (h : s.wdg.h = none) (cls code unit : Nat) :
    raise s cls code unit = beginHandling s cls code unit ((s.now - s.wdg.base) / 100) := by
  unfold raise raiseAt; rw [h]

/-- The first C1 fault of a core in a tick, in one expression. -/
theorem coreFault_first {s : State} {c : CoreId} {code : Nat} (seg ofs : Nat) (hcode : code ≠ 0x2010) (hc1 : s.cores[c].c1 = false) :
    ∃ pay, coreFault s c code seg ofs =
      raise ((bump ((ev s code pay).updCore c fun k =>
        { k.setCtx { s.cores[c].ctx with flight := [], link := [], delay := .none } with lastFault := code }) (K.TICKk_FAULT_CNT c)).updCore c
          fun k => { k with st := .aband, c1 := true, abCyc := k.cyc }) 1 code (2 ^ c.val) := by
  refine ⟨p4 c.val ++ p4 (if s.cores[c].inEvt then 2 else 1) ++ p4 (if s.cores[c].inEvt then s.cores[c].slot else s.cores[c].pos) ++
    p4 s.cores[c].ctx.pc.toNat ++ p4 s.cores[c].word.toNat ++ p8 s.tick.n ++ p4 seg ++ p4 ofs, ?_⟩
  unfold coreFault
  simp only [hcode, if_false, hc1, Bool.false_eq_true, if_false]

/-- All that the first C1 fault of a core in a tick does, with no handling in progress (R74, R113, R114, R497). -/
theorem coreFault_spec {s : State} {c : CoreId} {code : Nat} (seg ofs : Nat) (hcode : code ≠ 0x2010) (hc1 : s.cores[c].c1 = false)
    (hh : s.wdg.h = none) (hq : s.evr.queue.length < 64) :
    let t := coreFault s c code seg ofs
    (∃ d : Ctx, d.flight = [] ∧ d.link = [] ∧
      t.cores[c] = { s.cores[c].setCtx d with lastFault := code, st := .aband, c1 := true, abCyc := s.cores[c].cyc }) ∧
    (∀ k : CoreId, k ≠ c → t.cores[k] = s.cores[k]) ∧ t.mem = s.mem ∧
    rw t (K.TICKk_FAULT_CNT c) = satInc (rw s (K.TICKk_FAULT_CNT c)) ∧
    ∃ o : Occ, t.evr.queue = s.evr.queue ++ [o] ∧ o.code = code ∧ o.ts = s.now := by
  obtain ⟨pay, ht⟩ := coreFault_first seg ofs hcode hc1
  intro t
  have htd : t = _ := ht
  clear_value t
  clear ht
  generalize hdd : ({ s.cores[c].ctx with flight := [], link := [], delay := .none } : Ctx) = d at htd
  have hd : d.flight = [] ∧ d.link = [] := by subst hdd; exact ⟨rfl, rfl⟩
  rw [raise_first (by simp [hh])] at htd
  have hev : ev s code pay = { s with evr := { s.evr with queue := s.evr.queue ++ [{ ts := s.now, code := code, pay := pay, burst := false, prog := false }] } } := by
    unfold ev pushOcc; rw [if_pos hq]
  refine ⟨⟨d, hd.1, hd.2, ?_⟩, fun k hk => ?_, ?_, ?_, ?_⟩
  · rw [htd]
    simp only [beginHandling_cores, updCore_get, if_true, bump_cores, ev_cores]
    congr 1
    exact Core.setCtx_cyc _ _
  · rw [htd]
    simp only [beginHandling_cores, updCore_get, bump_cores, ev_cores, if_neg (Ne.symm hk)]
  · rw [htd]; simp
  · rw [htd]
    refine (rw_congr (s := bump ((ev s code pay).updCore c fun k => { k.setCtx d with lastFault := code }) (K.TICKk_FAULT_CNT c)) rfl rfl _).trans
      ((rw_bump_of_reset _ (resetWord_faultCnt c) (by decide)).trans (congrArg (satInc · 1) (rw_congr ?_ ?_ _))) <;> rw [hev] <;> rfl
  · rw [htd]
    simp only [beginHandling_evr, State.updCore_evr, bump_evr, hev]
    exact ⟨_, rfl, rfl, rfl⟩

/-- An instruction of core `c` that faults for the first time in a tick, with no handling in progress: the C1 fault of R74. -/
theorem faults_of_coreFault {s s1 : State} {c : CoreId} {i : Instr} {code seg ofs : Nat} (he : exec i s = .next (coreFault s1 c code seg ofs))
    {x : Ctx} {w : Word} (h1 : s1 = s.updCore c fun k => { k.setCtx x with word := w }) (hcode : code ≠ 0x2010)
    (hc1 : s.cores[c].c1 = false) (hh : s.wdg.h = none) (hq : s.evr.queue.length < 64) : Faults s c i code := by
  have hk : s1.cores[c] = { s.cores[c].setCtx x with word := w } := by rw [h1, updCore_get, if_pos rfl]
  have hc1' : s1.cores[c].c1 = false := by rw [hk]; unfold Core.setCtx; split <;> exact hc1
  have hcyc : s1.cores[c].cyc = s.cores[c].cyc := by rw [hk]; exact Core.setCtx_cyc _ _
  obtain ⟨⟨d, hd1, hd2, hd⟩, h2, h3, h4, o, h5⟩ := coreFault_spec (s := s1) seg ofs hcode hc1' (by rw [h1]; exact hh) (by rw [h1]; exact hq)
  have hctx : ∀ q : Core, ({ q.setCtx d with lastFault := code, st := .aband, c1 := true, abCyc := s1.cores[c].cyc } : Core).ctx = d :=
    fun q => Core.setCtx_ctx q d
  refine ⟨_, he, ?_, ?_, ?_, ?_, ?_, ?_, ?_, ⟨o, ?_⟩, ?_, fun k hk => ?_⟩
  · rw [hd]
  · rw [hd]
  · rw [hd]
  · rw [hd, hctx]; exact hd1
  · rw [hd, hctx]; exact hd2
  · rw [hd, ← hcyc]
  · rw [h4, h1]; rfl
  · rw [h1] at h5 ⊢; exact h5
  · rw [h3, h1]; rfl
  · rw [h2 k hk, h1, updCore_get, if_neg (Ne.symm hk)]

/-- A ready core's instruction whose own check fails is the C1 fault of that check. -/
theorem faults_of_issue {s : State} {c : CoreId} {i : Instr} {f : Ctx → EOut} {code seg ofs : Nat} (h : Ready s c)
    (he : exec i s = .next (issue s c i f)) (hf : f (issueCtx s c) = .fault code seg ofs) (hcode : code ≠ 0x2010)
    (hc1 : s.cores[c].c1 = false) (hh : s.wdg.h = none) (hq : s.evr.queue.length < 64) : Faults s c i code := by
  obtain ⟨h1, h2, h3, h4⟩ := h
  have hi : issue s c i f =
      coreFault (s.updCore c fun k => { k.setCtx (issueCtx s c) with word := (encode i).getD 0 }) c code seg ofs := by
    have hb1 : ∀ (g : Core → Core) l, bankBad (s.updCore c g) l = bankBad s l := fun g l => rfl
    have ha : ∀ g : Core → Core, activeBank (s.updCore c g) c = activeBank s c := fun g => rfl
    unfold issue
    simp only [h1, Bool.not_true, Bool.false_eq_true, if_false, hb1, ha, h3, hf]
    rw [if_neg (by omega)]
  exact faults_of_coreFault (he.trans (by rw [hi])) rfl hcode hc1 hh hq

/-! ## The service core (R75) -/

theorem svNote_frame (s : State) (q : SvTrap) : (svNote s q).cores = s.cores ∧ (svNote s q).mem = s.mem ∧ (svNote s q).sv = s.sv := by
  unfold svNote; split <;> simp

theorem svNotes_frame (l : List SvTrap) (s : State) :
    (l.foldl svNote s).cores = s.cores ∧ (l.foldl svNote s).mem = s.mem ∧ (l.foldl svNote s).sv = s.sv := by
  induction l generalizing s with
  | nil => exact ⟨rfl, rfl, rfl⟩
  | cons q l ih =>
    obtain ⟨h1, h2, h3⟩ := ih (svNote s q)
    obtain ⟨g1, g2, g3⟩ := svNote_frame s q
    exact ⟨h1.trans g1, h2.trans g2, h3.trans g3⟩

/-- A service that meets no wait leaves nothing to report. -/
theorem svNotes_none (l : List SvTrap) (s : State) (h : ∀ q ∈ l, q.start ≤ q.at_) : l.foldl svNote s = s := by
  induction l generalizing s with
  | nil => rfl
  | cons q l ih =>
    have hq : svNote s q = s := by unfold svNote; rw [if_pos (h q (by simp))]
    rw [List.foldl_cons, hq]
    exact ih s fun p hp => h p (by simp [hp])

/-- The order of service moves cores only along their cycles: the resume cycle of a core, and that of its abandonment. -/
theorem svMoves_frame (was : SvTrap → Nat) (l : List SvTrap) (s : State) :
    (l.foldl (svMove was) s).mem = s.mem ∧
      ∀ k : CoreId, ∃ n m, (l.foldl (svMove was) s).cores[k] = { s.cores[k] with cyc := n, abCyc := m } ∧ (s.cores[k].st ≠ .aband → m = s.cores[k].abCyc) := by
  induction l generalizing s with
  | nil => exact ⟨rfl, fun k => ⟨_, _, rfl, fun _ => rfl⟩⟩
  | cons q l ih =>
    obtain ⟨h1, h2⟩ := ih (svMove was s q)
    refine ⟨h1.trans rfl, fun k => ?_⟩
    obtain ⟨n, m, h, hm⟩ := h2 k
    have hq : ∃ n m, (svMove was s q).cores[k] = { s.cores[k] with cyc := n, abCyc := m } ∧ (s.cores[k].st ≠ .aband → m = s.cores[k].abCyc) := by
      unfold svMove
      rw [updCore_get]
      split
      · rename_i e
        subst e
        split
        · exact ⟨_, _, rfl, fun e => if_neg fun h => e h.1⟩
        · exact ⟨_, _, rfl, fun _ => rfl⟩
      · exact ⟨_, _, rfl, fun _ => rfl⟩
    obtain ⟨n', m', g, gm⟩ := hq
    rw [List.foldl_cons]
    refine ⟨n, m, by rw [h, g], fun e => ?_⟩
    rw [g] at hm
    exact (hm e).trans (gm e)

/-- All that a trap does beside its own computation (R75): no core has more moved than its resume cycle, and no memory changes. -/
theorem svTrap_frame (s : State) (c : CoreId) (cost : Nat) :
    (svTrap s c cost).mem = s.mem ∧ ∀ k : CoreId, ∃ n m, (svTrap s c cost).cores[k] = { s.cores[k] with cyc := n, abCyc := m } ∧
      (s.cores[k].st ≠ .aband → m = s.cores[k].abCyc) := by
  unfold svTrap
  dsimp only
  generalize (List.filter _ s.sv.queue) = begun
  obtain ⟨h1, h2, -⟩ := svNotes_frame begun s
  refine ⟨(svMoves_frame _ _ _).1.trans h2, fun k => ?_⟩
  have key : ∀ (w : SvTrap → Nat) (l : List SvTrap) (q : State), q.cores = s.cores → ∃ n m,
      (l.foldl (svMove w) q).cores[k] = { s.cores[k] with cyc := n, abCyc := m } ∧ (s.cores[k].st ≠ .aband → m = s.cores[k].abCyc) :=
    fun w l q hq => hq ▸ (svMoves_frame w l q).2 k
  exact key _ _ _ h1

/-- A trap that no other waits beside is served when every service that has begun is over. -/
theorem svTrap_begun {s : State} {c : CoreId} (cost : Nat) (h : ServiceBegun s c) (hst : s.cores[c].st ≠ .aband) :
    svTrap s c cost =
      { s.sv.queue.foldl svNote s with
        sv := (svTrap s c cost).sv
        cores := s.cores.set c { s.cores[c] with cyc := s.cores[c].cyc + serviceWait s c + cost } c.isLt } := by
  have h1 : (s.sv.queue.filter fun q => decide (q.start < s.cores[c].cyc)) = s.sv.queue :=
    List.filter_eq_self.2 fun q hq => decide_eq_true (h q hq)
  have h2 : (s.sv.queue.filter fun q => decide (s.cores[c].cyc ≤ q.start)) = [] :=
    List.filter_eq_nil_iff.2 fun q hq => by have := h q hq; simp; omega
  obtain ⟨hc, hm, hv⟩ := svNotes_frame s.sv.queue s
  unfold svTrap
  simp only [h1, h2, hv, List.nil_append, List.length_singleton, svPlan, svFirst, List.foldl_cons, List.foldl_nil]
  unfold svMove
  unfold State.updCore serviceWait
  simp only [hc, if_true, hst, false_and, if_false]
  congr 3
  omega

/-! ## Emulated opcodes -/

/-- An emulated instruction of a ready core that stands in no delay slot (R115 to R117, R143). -/
theorem emulates_of_emulate {s : State} {c : CoreId} {i : Instr} {cost : Nat} {f : Ctx → Option (List Res)} {fl : Ctx → List Res}
    (h : ReadyFree s c) (he : exec i s = .next (emulate s c i cost f)) (hf : ∀ y, f y = some (fl y)) : Emulates s c i cost fl := by
  obtain ⟨⟨h1, h2, h3, h4⟩, hdel⟩ := h
  let x := issueCtx s c
  let y := ({ x with flight := [] } : Ctx).completeAll x.flight
  let z : Ctx := { (fl y).foldl Ctx.complete y with pc := y.pc + 4 }
  let s1 := s.updCore c fun k => { k.setCtx x with word := (encode i).getD 0 }
  let s3 := (svTrap s1 c cost).updCore c fun k => k.setCtx z
  have ht : emulate s c i cost f = s3 := by
    have hb1 : ∀ (g : Core → Core) l, bankBad (s.updCore c g) l = bankBad s l := fun g l => rfl
    have ha : ∀ g : Core → Core, activeBank (s.updCore c g) c = activeBank s c := fun g => rfl
    unfold emulate
    simp only [h1, Bool.not_true, Bool.false_eq_true, if_false, hb1, ha, h3, hf]
    rw [if_neg (by omega), if_neg (by simp [hdel])]
  have hall := Ctx.completeAll_rest ({ x with flight := [] } : Ctx) x.flight
  have hfold : ∀ (l : List Res) (y : Ctx), (l.foldl Ctx.complete y).flight = y.flight := by
    intro l
    induction l with
    | nil => exact fun _ => rfl
    | cons r l ih => exact fun y => (ih _).trans (y.complete_rest r).2.2.2
  have hc1 : s1.cores[c] = { s.cores[c].setCtx x with word := (encode i).getD 0 } := by simp only [s1]; rw [updCore_get, if_pos rfl]
  have hstc : ∀ (q : Core) (y : Ctx), (q.setCtx y).st = q.st := fun q y => by unfold Core.setCtx; split <;> rfl
  have hst : s.cores[c].st = .run := by unfold canIssue at h1; simp at h1; exact h1.2
  have hst1 : s1.cores[c].st = .run := by rw [hc1]; exact (hstc _ _).trans hst
  have hcyc1 : s1.cores[c].cyc = s.cores[c].cyc := by rw [hc1]; exact Core.setCtx_cyc _ _
  obtain ⟨hmem, hfr⟩ := svTrap_frame s1 c cost
  obtain ⟨n, m, hn, -⟩ := hfr c
  have hc : s3.cores[c] = (({ s1.cores[c] with cyc := n, abCyc := m } : Core)).setCtx z := by
    simp only [s3]; rw [updCore_get, if_pos rfl, hn]
  have hctx : s3.cores[c].ctx = z := by rw [hc, Core.setCtx_ctx]
  refine ⟨s3, by rw [he, ht], ?_, ?_, ?_, ⟨y, fun j hj => ?_, ?_⟩, hmem, fun hb => ?_⟩
  · rw [hc, hstc]; exact hst1
  · rw [hctx]; simp only [z]; rw [show y.pc = x.pc from hall.1]
  · rw [hctx]; exact (hfold _ _).trans hall.2.2.2
  · -- everything that was in flight has completed
    unfold regsAt
    refine SameRegs.trans ?_ (Ctx.settle_regs _ j).symm
    have hx : SameRegs y (x.completeAll x.flight) := SameRegs.completeAll (x := { x with flight := [] }) (y := x) ⟨rfl, rfl, rfl, rfl, rfl⟩ _
    refine hx.trans ?_
    have hall : (s.cores[c].ctx.flight.takeWhile fun q => decide (q.due ≤ j)) = s.cores[c].ctx.flight :=
      List.takeWhile_eq_self_iff.2 fun q hq => by simpa using hj q hq
    rw [hall]
    have hx2 := (Ctx.settle_regs s.cores[c].ctx s.cores[c].cyc).completeAll (s.cores[c].ctx.flight.dropWhile fun q => decide (q.due ≤ s.cores[c].cyc))
    rw [← Ctx.completeAll_append, List.takeWhile_append_dropWhile] at hx2
    exact hx2
  · rw [hctx]; exact ⟨rfl, rfl, rfl, rfl, rfl⟩
  · -- every earlier trap has begun its service
    have hb1 : ServiceBegun s1 c := fun q hq => by rw [hcyc1]; exact hb q hq
    have hw1 : serviceWait s1 c = serviceWait s c := by unfold serviceWait; rw [hcyc1]; rfl
    have hsv := svTrap_begun cost hb1 (by rw [hst1]; decide)
    have hk : (svTrap s1 c cost).cores[c] = { s1.cores[c] with cyc := s1.cores[c].cyc + serviceWait s1 c + cost } := by
      rw [hsv]; simp
    have hc2 : s3.cores[c] = ({ s1.cores[c] with cyc := s1.cores[c].cyc + serviceWait s1 c + cost } : Core).setCtx z := by
      simp only [s3]; rw [updCore_get, if_pos rfl, hk]
    refine ⟨?_, ?_, fun k hk => ?_, fun hn => ?_⟩
    · rw [hc2, Core.setCtx_cyc]; simp only [hcyc1, hw1]
    · unfold OnlyCtx
      rw [hc2, hc1]
      generalize s.cores[c] = q
      cases q with
      | mk st task evt pos slot inEvt => cases inEvt <;> simp [Core.setCtx]
    · simp only [s3]
      rw [updCore_get, if_neg (Ne.symm hk), hsv]
      have : c.val ≠ k.val := fun e => hk (Fin.ext e.symm)
      simp [s1, State.updCore, this]
    · simp only [s3]
      rw [hsv, svNotes_none _ _ (show ∀ q ∈ s1.sv.queue, q.start ≤ q.at_ from hn)]
      rfl

end Sys2Proof.Machine
end

