-- ==== Sys2Proof/Laws/Step.lean ====
section
/-! SUPPORT. Laws of the step and of the queue of waiting commands. -/

namespace Sys2Proof.Machine

/-- The command at the front of the queue takes effect on the state with the queue's rest. -/
theorem step_cons {s : State} {i : Instr} {r : List Instr} (h : s.pending = i :: r) : step s = exec i { s with pending := r } := by
  unfold step; rw [h]

/-- An empty queue idles. -/
theorem step_nil {s : State} (h : s.pending = []) : step s = .next s := by unfold step; rw [h]

/-- No word of the operation table spells a command. -/
theorem withFetchWord_eq (s : State) (nbits w : Nat) : s.withFetchWord nbits w = s := rfl

/-- A property that every command keeps, and that does not speak of the queue, is kept by every step. -/
theorem step_invariant {P : State → Prop} (hq : ∀ s r, P s → P { s with pending := r })
    (h : ∀ i s t, P s → exec i s = .next t → P t) {s t : State} (hs : P s) (ht : step s = .next t) : P t := by
  unfold step at ht
  split at ht
  · cases ht; exact hs
  · exact h _ _ _ (hq _ _ hs) ht

end Sys2Proof.Machine

namespace Sys2Proof

open Machine

/-- A property that every step keeps holds after a run. -/
theorem RunsTo.invariant {P : State → Prop} (h : ∀ s t, P s → step s = .next t → P t) {n : Nat} {s t : State} (hs : P s)
    (hr : RunsTo n s t) : P t := by
  induction n generalizing s with
  | zero => exact hr ▸ hs
  | succ n ih =>
    obtain ⟨m, h1, h2⟩ := hr
    exact ih (h s m hs h1) h2

end Sys2Proof
end

