-- ==== Sys2Proof/Tests/Slice0.lean ====
section
/-! SUPPORT. Small tests: ill-formed commands, words written out from the encoding tables, and for every statement with hypotheses a state
that meets them. -/

set_option Elab.async false

namespace Sys2Proof.Tests

open Sys2Proof Sys2Proof.Machine

/-! ## Helper states -/

/-- The state that an outcome leads to. -/
def after (o : Host.Outcome State Fault Refusal) : State := match o with | .next t => t | _ => State.reset

/-- A change of core 0. -/
def onCore (s : State) (f : Core → Core) : State := s.updCore 0 f

/-- A change of the context of core 0's task. -/
def onCtx (s : State) (f : Ctx → Ctx) : State := onCore s fun k => { k with task := f k.task }

/-- A module alone in RUN, at the start of Phase L of tick 5. -/
def inRun : State :=
  { State.reset with
    mode := .run
    tick := { State.reset.tick with phase := .l, n := 5, k := 5, edgeTs := 1000, now := 2000, seqOn := true }
    power := { State.reset.power with present := true, m1 := true, m2 := true } }

/-- Core 0 runs a task in cycle 20. -/
def running : State := onCore inRun fun k => { k with st := .run, cyc := 20 }

/-- A segment of the shared SRAM that permits reads and writes, one in the X bank and one in the Y bank, each of 1 KiB. -/
def segShared : Dword := mkDesc 0x10000000 0x130003FF
/-- In the X bank. -/
def segX : Dword := mkDesc 0x00100000 0x130003FF
/-- In the Y bank, circular. -/
def segY : Dword := mkDesc 0x00200000 0x170003FF

/-- Segments in s2, s3 and s4, and some register values: an offset in g4, an odd one in g5, -1 in g6, -2^31 in g7, b3 set. -/
def loaded : State :=
  onCtx running fun x => { x with
    s := ((x.s.set 2 segShared).set 3 segX).set 4 segY
    g := (((x.g.set 4 0x40).set 5 3).set 6 0xFFFFFFFF).set 7 0x80000000
    b := x.b.set 3 true }

theorem ready_loaded (c : CoreId) (h : c = 0) : ReadyFree loaded c := by subst h; unfold ReadyFree Ready; decide +kernel

/-- Task list of core 0: its second entry is due in tick 5, an event slot for source 7. -/
def list0 : TList :=
  { core := 0, tasks := [⟨0x40, 0, 0, 1, 0⟩, ⟨0x80, 0, 1, 2, 0⟩], slots := [⟨0xC0, 0, 7, 1, 100⟩], frcap := 2, evrec := 0x10000100, needMax := 0,
    s0 := segShared, segs := [] }

/-- An image with that task list. -/
def img : Image :=
  { hdr := ⟨250, 1, 0, 0, 0, 0, 0, 0, 0, 0⟩, nloop := 0, areas := [], xchgs := [], lists := [list0], syms := [], inits := [], code := [], migrate := none,
    progid := List.replicate 32 0, chgmax := 64, rollback := 0, words := [], linkSafe := [], loopKeep := [], cams := [], hostKeys := [], member := 0,
    peerProg := [], execMeas := [], m := [] }

/-- The running core with that program. -/
def tasked : State := { running with prog := some img }

/-- A return at depth 0 waits for its delay slot. -/
def ending : State := onCtx tasked fun x => { x with delay := .endTask 2100 }

/-- A delay slot of a branch. -/
def inSlot : State := onCtx loaded fun x => { x with delay := .jump 0x200 }

/-- s0 covers a table of descriptors whose first entry is `segShared`, and g8:g9 hold that descriptor. -/
def withTable : State :=
  onCtx { loaded with mem := { loaded.mem with cells := [(0x10000003, 0x10), (0x10000004, 0xFF), (0x10000005, 0x03), (0x10000007, 0x13)] } } fun x => { x with
    s := x.s.set 0 (mkDesc 0x10000000 0x2100003F)
    g := (x.g.set 8 0x10000000).set 9 0x130003FF }

/-- Results in flight over the registers that the tests use. -/
def inFlight (s : State) : State :=
  onCtx s fun x => { x with flight := [⟨20, .g 4 0x44⟩, ⟨21, .g 1 9⟩, ⟨21, .csrOr 0x10⟩, ⟨23, .accAdd 1 5⟩, ⟨24, .b 1 true⟩, ⟨24, .g 4 7⟩] }

/-- Core 0 has had a C1 fault in this tick. -/
def faulted : State := onCore loaded fun k => { k with c1 := true }

/-- Sixteen calls deep. -/
def deep : State := onCtx loaded fun x => { x with link := List.replicate 16 (0x100, segX) }

/-- Core 0's abandoned task, and an abandoned event task. -/
def abandoned : State := onCore tasked fun k => { k with st := .aband, abCyc := 30, c1 := true }
def abandonedEvt : State := onCore abandoned fun k => { k with inEvt := true, resume := true }

/-- Event slot 0 of core 0 waits for its release. -/
def triggered : State := onCore tasked fun k => { k with slots := k.slots.set 0 { k.slots[0] with pending := true, count := 1 }, evtPend := 1 }

/-- Latent errors in the SRAM. -/
def flawed : State := { inRun with mem := { inRun.mem with single := [0x10000000, 0x10000040], scrub := 0 } }
def flawed2 : State := { inRun with mem := { inRun.mem with double := [0x10000000] } }

/-- Word `k` with value `v`. -/
def withWord (s : State) (k v : Nat) : State := sn s k v

/-- Link 0 is UP and sent a cyclic frame to one head at the last edge. -/
def linkUp : State :=
  let s := withWord (withWord (withWord inRun (K.LINKk_ENABLE 0) 1) (K.LINKk_HEADS 0) 1) (K.LINKk_STATE 0) 2
  { s with links := s.links.set 0 { s.links[0] with last := some ⟨0x11, 5, 1, 1000⟩, fail := 1, miss := [0] } }

/-- Link 0 with thirty-two heads in a period that is too short for them. -/
def linkLong : State := { withWord inRun (K.LINKk_HEADS 0) 32 with tick := { inRun.tick with t := 30 } }

/-- The last frame of a safe burst is due on link 0, and one before it. -/
def bursting (n : Nat) : State :=
  { linkUp with links := linkUp.links.set 0 { linkUp.links[0] with burst := n, burstAt := 3000, closing := true } }

/-- A STANDBY module. -/
def standby : State := { inRun with role := .standby }

/-- The encoder unit runs; port 0 is enabled in incremental mode. -/
def encInc : State :=
  let s := withWord inRun (K.ENCk_ENABLE 0) 1
  { s with enc := { s.enc with on := true } }

/-- Port 0 is an enabled SSI port whose request has been sent. -/
def encSsi : State :=
  let s := withWord (withWord (withWord encInc (K.ENCk_MODE 0) 1) (K.ENCk_DATABITS 0) 13) (K.ENCk_CODE 0) 0
  { s with enc := { s.enc with ports := s.enc.ports.set 0 { s.enc.ports[0] with req := some 1900 } } }

/-- An image with two loops; loop 0 is OPEN and due. -/
def looped : State :=
  let s := { inRun with prog := some { img with nloop := 2, areas := [⟨5, 0, 0, 0, 80⟩, ⟨5, 0, 1, 0, 32⟩] }, loop := { inRun.loop with due := [0, 1] } }
  s.updLoop 0 fun q => { q with st := 1 }

/-- Loop 0 is DISABLED. -/
def loopOff : State := looped.updLoop 0 fun q => { q with st := 0 }

/-- A tune run of loop 0 is in IDENT. -/
def identifying : State :=
  { looped with loop := { looped.loop with run := some { loop := 0, owner := some 0, entered := true, j := 10, y0 := 0, close0 := false, g := 0, lfsr := 1, w := 0,
                                                         ident := true, found := none } } }

/-- Controller 0 is enabled, with filter 0 for every standard identifier to buffer 31, filter 1 for extended ones to the FIFO. -/
def busOn : State :=
  let s := withWord (withWord (withWord inRun (K.BUSk_ENABLE 0) 1) (K.BUSk_FDEST 0 0) 0x5F) (K.BUSk_FDEST 0 1) 0x80
  withWord s (K.BUSk_FID 0 1) 0x20000000

/-- Its FIFO is full. -/
def fifoFull : State := { busOn with bus := busOn.bus.set 0 { busOn.bus[0] with fifo := List.replicate 16 ⟨0, ⟨0, false, []⟩⟩ } }

/-- Buffer 15 is entered. -/
def busEntered : State := { busOn with bus := busOn.bus.set 0 { busOn.bus[0] with entered := [⟨15, none, 0, List.replicate 80 0, false⟩] } }

/-- Bus-off, waiting and recovering. -/
def busOff (r : Bool) : State := { busOn with bus := busOn.bus.set 0 { busOn.bus[0] with off := 1, offTicks := 0xFFFFFFFF, recov := r, row := 1 } }

/-- Window 0 of the basic cycle holds buffer 0, a SCHED buffer. -/
def busSched : State :=
  let s := withWord (withWord (withWord busOn (K.BUSk_WOFS 0 0) 10) (K.BUSk_TXMODE 0 0) 1) (K.BUSk_MATRIX 0 0) 0xFFFFFF00
  { s with bus := s.bus.set 0 { s.bus[0] with nextWin := 0, cur := List.replicate 16 (List.replicate 80 0) } }

/-- The input stages work; input 24 has changed; the outputs are enabled and output 0 is driven. -/
def dioRun : State :=
  let s := withWord (withWord (withWord (withWord inRun K.DIO_ENABLE 1) K.DIO_COS_EN 0xFFFFFFFF) K.DIO_WB_EN 0xFFFFFF) K.DIO_OL_EN 1
  { s with dio := { s.dio with
      on := true, sampled := 1900
      di := (s.dio.di.set 24 { s.dio.di[24] with init := false, raw := true, stamp := 1950 }).set 1 { s.dio.di[1] with brk := true }
      do_ := s.dio.do_.set 0 { s.dio.do_[0] with rel := true, dec := true } } }

/-- Output 0 holds in retry state `r` with two failed tries. -/
def retrying (r : Nat) : State := { dioRun with dio := { dioRun.dio with do_ := dioRun.dio.do_.set 0 { dioRun.dio.do_[0] with retry := r, ovl := true, fails := 2, until_ := 5000 } } }

/-- The panel driver works with two planes of two lines in region 0; its last line but one is being written. -/
def panelRun : State :=
  let s := withWord (withWord (withWord (withWord inRun K.PANEL_PLANES 3) K.PANEL_COMS 4) K.PANEL_ENABLE 1) (K.PANEL_REG 0) 0x87001003
  let s := { s with panel := { s.panel with rails := 2, lineAt := some 1800, blink := [(0, 90000)] } }
  { s with ret := { s.ret with j := { s.ret.j with panel := { s.ret.j.panel with runR := some 0, line := 2, runReq := 9 } } } }

/-- Its last line. -/
def panelLast : State := { panelRun with ret := { panelRun.ret with j := { panelRun.ret.j with panel := { panelRun.ret.j.panel with line := 3 } } } }

/-- The panel with its rails in state `r` and no region. -/
def panelRails (r : Nat) : State :=
  let s := { panelRun with panel := { panelRun.panel with rails := r, lineAt := none, wantStart := true } }
  { s with ret := { s.ret with j := { s.ret.j with panel := { s.ret.j.panel with runR := none } } } }

/-- The last second of a leap day, and of the calendar. -/
def leapEnd : State := { inRun with rtc := { inRun.rtc with t := ⟨0, 59, 59, 23, 29, 2, 2000⟩, wday := 1 } }
def calendarEnd : State := { inRun with rtc := { inRun.rtc with t := ⟨0, 59, 59, 23, 31, 12, 2399⟩ } }

/-- The supplies of the clock: from the rail, with its trickle charge on. -/
def clockRail : State := { withWord inRun K.RTC_CHARGE 1 with rtc := { inRun.rtc with backup := false } }

/-- SET words: 29 February of `y` at 23:59:59. -/
def setWords (y : Nat) : State :=
  let w := fun (s : State) (k v : Nat) => withWord s k v
  w (w (w (w (w (w inRun K.RTC_SET_SECOND 59) K.RTC_SET_MINUTE 59) K.RTC_SET_HOUR 23) K.RTC_SET_DAY 29) K.RTC_SET_MONTH 2) K.RTC_SET_YEAR y

/-- Session 0 froze its time fields at 1900. -/
def frozen : State := { inRun with rtc := { inRun.rtc with shadow := inRun.rtc.shadow.set 0 (some (1900, List.replicate 10 7)) } }

/-- An occurrence with `n` bytes of payload stands in front of the queue; a record at `o` is next. -/
def recording (n o : Nat) (b : Bool) : State :=
  { inRun with evr := { inRun.evr with next := o, queue := [⟨1500, 0x4005, List.replicate n 7, b, false⟩] } }

/-- A burst of that occurrence is open. -/
def bursts : State :=
  let s := recording 4 64 true
  { s with evr := { s.evr with bursts := [⟨0x4005, List.replicate 4 7, 32, 1000⟩, ⟨0x4006, [], 0, 900⟩], ring := [(36, 5)] } }

/-- The ring of a module after power-up, with one record that is not valid. -/
def scanning : State :=
  { State.reset with mode := .cedar, start := { State.reset.start with kind := 4 },
                     evr := { State.reset.evr with scanning := true, recs := [⟨0, 1, 2, 0⟩] } }

/-- A restart is due. -/
def restarting : State := { inRun with wdg := { inRun.wdg with restartDue := true, running := true } }

/-- CEDAR in a hold, with the watchdog running. -/
def inCedar : State :=
  { State.reset with mode := .cedar, start := { State.reset.start with step := .hold, reason := 2 }, wdg := { State.reset.wdg with running := true }
                     tick := { State.reset.tick with seqOn := true, now := 100000, e0 := 1000 }, power := { State.reset.power with present := true } }

/-- An open record of tick 4 waits for its seal, and a sealed one for its application. -/
def recOf (st : RecState) (mirror : Bool) : Rec :=
  { tick := 4, first := 4, edgeTs := 800, start := 0, nlines := 1, progid8 := [], paired := false, cold := false, merged := false, hcrc := 0, st := st, tags := [],
    body := some { lines := [(0x4000, List.replicate 64 1)], j := State.reset.ret.j, x := State.reset.ret.x }, mirror := mirror, began := 900 }
def committing (st : RecState) : State := { inRun with ret := { inRun.ret with dir := [recOf st false] } }

/-- A member of a pair with port S on and both lanes UP, and the partner's latest heartbeat. -/
def hbOf (role : Nat) : Hb :=
  { role := role, state := 0, flags := 0, epoch := 3, tick := 4, edgeTs := 800, ackTick := none, durable := 3, progid8 := [], period := 250, lease := 4, serial := 1 }
def paired (role : Role) : State :=
  let s := { withWord inRun K.PAIR_S_ENABLE 1 with role := role }
  let up := { s.pair.lanes[0] with lock := true, st := 2 }
  { s with pair := { s.pair with lanes := (s.pair.lanes.set 0 up).set 1 up, peer := some (hbOf (if role = .active then 2 else 1)), rcvTs := 1500 } }

/-- An ACTIVE module whose lane B is dark, and one whose lease has run out. -/
def oneLane : State := let s := paired .active; { s with pair := { s.pair with lanes := s.pair.lanes.set 1 { s.pair.lanes[1] with st := 0 } } }
def leaseOut : State := let s := paired .active; { s with pair := { s.pair with leaseX := some 1 } }

/-- A STANDBY module whose ACTIVE partner fell silent on its lanes. -/
def silent : State :=
  let s := paired .standby
  let l := { s.pair.lanes[0] with st := 1 }
  { s with pair := { s.pair with lanes := (s.pair.lanes.set 0 l).set 1 l, lost := true } }

/-- A STANDBY module that has received line 0 of a mirror record. -/
def mirroring : State := let s := paired .standby; { s with pair := { s.pair with rx := [(0, 5 * 2 ^ 48 + 0x4000, List.replicate 64 1)] }, ret := { s.ret with durTick := 4 } }

/-- An ACTIVE module that waits for a confirmation. -/
def unconfirmed4 : State := let s := paired .active; { s with pair := { s.pair with unconf := [(4, 4, 900), (5, 5, 1100)] } }

/-- A STANDBY module with its program in slot 0. -/
def standbySlot : State := let s := paired .standby; { s with upd := { s.upd with active := 0 } }

/-- Port J on, its lanes UP, in join state `st`. -/
def joining (st : Nat) : State :=
  let s := { withWord inRun K.PAIR_J_ENABLE 1 with prog := some { img with member := 0, peerProg := List.replicate 32 9 } }
  let up := { s.pair.lanes[0] with lock := true, st := 2 }
  { s with pair := { s.pair with lanes := (s.pair.lanes.set 2 up).set 3 up }, join := { s.join with st := st, on := true, policy := 0 } }
def jhbOf (prog : List Byte) : Jhb :=
  { member := 1, state := 0, flags := 0, tick := 4, edgeTs := 800, theta0 := 0, omega := 0, progid8 := prog, period := 250, peerProg := List.replicate 8 0 }

/-- A quad whose members are all entitled alone. -/
def quad : State :=
  let s := { withWord (withWord (joining 2) K.PAIR_S_ENABLE 1) K.PAIR_QUAD 1 with role := .active, join := { (joining 2).join with quad := true } }
  { s with pair := { s.pair with entitled := some (3, 1000) }, join := { s.join with ent := some 1000 } }

/-- RESET with L+ present since 0, and without it. -/
def inReset : State := { State.reset with mode := .reset, start := { State.reset.start with step := .reset, kind := 1 }, power := { State.reset.power with present := true } }
def resetDark : State := { inReset with power := State.reset.power }

/-- A start at step `st` of kind `k`, with a carrier of 32 MiB whose image in slot 0 has no sections and whose first boot record is valid. -/
def bootBytes : List Byte := let b := leBytes 4 0x52424C56 ++ leBytes 4 0 ++ leBytes 8 7 ++ leBytes 12 0; b ++ leBytes 4 (crc32 b)
def listed (a : Nat) (l : List Byte) : List Host.Cell := cellWrite 0xFF [] a l
def starting (st : StartStep) (k : Nat) : State :=
  { State.reset with
    mode := .cedar, start := { State.reset.start with step := st, kind := k }, power := { State.reset.power with present := true }
    tick := { State.reset.tick with seqOn := true, now := 100000, e0 := 1000 }
    upd := { State.reset.upd with active := 0, booted := 0, car := { mib := 32, cells := listed 0 bootBytes ++ listed 0x40000 (leBytes 64 0) } } }

/-- The same with its program at step 8, and a record APPLIED. -/
def recovering : State := let s := starting .recover 1; { s with prog := some img, ret := { s.ret with dir := [{ recOf .applied false with body := none }] } }
def coldDue : State := { recovering with ret := { recovering.ret with j := { recovering.ret.j with cold := true } } }

/-- Step 9 with port S on. -/
def choosing (role : Option Nat) : State :=
  let s := withWord (starting .role 1) K.PAIR_S_ENABLE 1
  { s with pair := { s.pair with peer := role.map hbOf } }

/-- A power-fail sequence runs. -/
def failing : State := { inRun with power := { inRun.power with pf := some (2000, true), present := false } }

/-- DORMANT with WAKE_CTRL bit 3 set. -/
def dormant : State := { withWord inRun K.POWER_WAKE_CTRL 8 with mode := .dormant, tick := { inRun.tick with seqOn := false, phase := .none } }

/-- At the end of the tick, and CEDAR ready for its first RUN edge. -/
def tickOver : State := { inRun with tick := { inRun.tick with phase := .o } }
def readyToRun : State := let s := starting .ready 1; { s with start := { s.start with served := true }, prog := some img }

/-- Phase I of a tick with a program on core 0. -/
def inPhaseI : State :=
  { inRun with
    prog := some img
    mem := { inRun.mem with cells := [(0x10000003, 0x10), (0x10000004, 0xFF), (0x10000005, 0x03), (0x10000007, 0x23)] }
    tick := { inRun.tick with phase := .i } }

/-- The end of Phase L. -/
def phaseOver : State := { inRun with tick := { inRun.tick with armed := true } }

/-- What the supplies show. -/
def edgeEnv : EdgeEnv := { lplusMv := 24000, m1Mv := 24000, m2Mv := 24000, bankMv := 36000, vbakMv := 3000, doLevel := 0, busy := [] }
def phaseOEnv : PhaseOEnv := { serviced := false, wdt := 0, busy := [], initFail := false }

/-- Session 0 is open and privileged, with number 3 next. -/
def inSession (s : State) : State :=
  let d := { s.ret.j.hdrs[0] with open_ := true, priv := true, nonce := 77, next := 3 }
  { s with
    ret := { s.ret with j := { s.ret.j with hdrs := s.ret.j.hdrs.set 0 d }, jd := { s.ret.jd with hdrs := s.ret.jd.hdrs.set 0 d } }
    host := { s.host with sess := s.host.sess.set 0 { s.host.sess[0] with x := 3, hrand := [1] } } }
/-- Its request with number `n`. -/
def reqNo (n : Nat) : ReqHdr := { slot := 0, nonce := 77, seq := n, tagOk := true, ip := 9, port := 50000, at_ := 2500 }
/-- With request `q` waiting. -/
def waiting (s : State) (q : Req) : State := { inSession s with host := { (inSession s).host with ready := [(0, 3, q)] } }

/-- An item of a value edit. -/
def item0 : EditItem := { symid := 1, index := 0, ty := 0, value := 1 }

/-- Eight batches wait. -/
def editsFull : State :=
  let s := inSession inRun
  { s with ret := { s.ret with x := { s.ret.x with edits := List.replicate 8 { slot := 1, seq := 1, items := [] } } } }

/-- A tune run of session 0; a proposal of loop 0; a capture that holds. -/
def tuning : State := inSession ((identifying.updLoop 0 fun q => { q with st := 3 }))
def proposed : State := inSession (withWord (withWord loopOff (K.TUNEk_PROP_STATE 0) 1) (K.TUNEk_PROP_KP 0) 0x3F800000)
def holding : State := let s := inSession looped; { s with loop := { s.loop with cap := { s.loop.cap with st := 3, owner := some 0, loop := 0 } } }

/-- An ACTIVE module whose partner is STANDBY, and session 0 privileged. -/
def master : State := waiting (paired .active) .pairSwap

/-- An exchange is loading an image without code. -/
def preloading : State :=
  { (starting .none 1) with mode := .run, exch := { State.reset.exch with st := 1, slot := 0, image := some img } }

/-- CEDAR and DORMANT with session 0. -/
def cedarSession : State := inSession inCedar
def dormantSession : State := inSession dormant

/-- All sessions open. -/
def allOpen : State :=
  let s := inSession inRun
  { s with ret := { s.ret with j := { s.ret.j with hdrs := s.ret.j.hdrs.map fun d => { d with open_ := true } } } }

/-- Slot 1 is held by session 0 for an update of 1 KiB, one sector of it erased; `op` is under way. -/
def updating (op : CarOp) : State :=
  let s := inSession inRun
  { s with
    upd := { s.upd with active := 0, op := op, car := { mib := 32, cells := listed 0 bootBytes } }
    ret := { s.ret with j := { s.ret.j with car := { s.ret.j.car with slot := 1, holder := 0, length := 1024, erasedTo := 1024, state := 2, opsect := 260 } } } }

/-- No update is held. -/
def noUpdate : State := let s := updating .none; { s with ret := { s.ret with j := { s.ret.j with car := State.reset.ret.j.car } } }

/-- An interrupted erase is to be repaired. -/
def repairing : State :=
  let s := updating .none
  { s with upd := { s.upd with recovering := true }, ret := { s.ret with j := { s.ret.j with car := { s.ret.j.car with opkind := 1 } } } }

/-- Owner slots 0 and 1 are enrolled. -/
def owned : State :=
  let s := inSession inRun
  { s with trust := { s.trust with owners := (s.trust.owners.set 0 ⟨[1], true, false⟩).set 1 ⟨[2], true, false⟩ } }
/-- Owner slot 0 alone. -/
def ownedOne : State := let s := inSession inRun; { s with trust := { s.trust with owners := s.trust.owners.set 0 ⟨[1], true, false⟩ } }
/-- A program of rollback step 5 runs. -/
def stepFive : State := { inSession inRun with prog := some { img with rollback := 5 } }

/-! ## More states -/

/-- The table at s0 gives an instance segment (type 2). -/
def tableFar : State :=
  onCtx { loaded with mem := { loaded.mem with cells := [(0x10000003, 0x10), (0x10000004, 0xFF), (0x10000005, 0x03), (0x10000007, 0x23)] } } fun x => { x with
    s := x.s.set 0 (mkDesc 0x10000000 0x2100003F) }

/-- Port 0's supply is on; port 0 is a serial port whose TMONO is longer than the period. -/
def encPowered : State := withWord inRun (K.ENCk_SUPPLY 0) 2
def encSlow : State := withWord (withWord inRun (K.ENCk_MODE 0) 1) (K.ENCk_TMONO 0) 1000

/-- Controller 0 without filters, and with a KCYC beyond its range. -/
def busAlone : State := withWord inRun (K.BUSk_ENABLE 0) 1
def busBad : State := withWord inRun (K.BUSk_KCYC 0) 65

/-- The third try of an output with RETRY_LIM = 3. -/
def retryLast : State := withWord (retrying 3) K.DIO_RETRY_LIM 3

/-- A panel with more commons than there are. -/
def panelBad : State := withWord inRun K.PANEL_COMS 17

/-- A standby that already exchanges. -/
def standbyXpair : State := { standbySlot with pair := { standbySlot.pair with xpair := true } }

/-- Step 3 without a carrier, and without a boot record. -/
def noCarrier : State := { starting .boot 1 with upd := State.reset.upd }
def noRecord : State := { starting .boot 1 with upd := { State.reset.upd with car := { mib := 32, cells := [] } } }

/-- A cold start that is marked. -/
def coldMarked : State := { coldDue with start := { coldDue.start with cold := some 3 } }

/-- A start of kind 4 with its executive in slot 1, where the boot record names slot 0. -/
def bootElsewhere : State := { starting .boot 4 with upd := { (starting .boot 4).upd with booted := 1 } }

/-- A level-1 start after a C2 fault. -/
def onceFaulted : State := { starting .exec 3 with wdg := { State.reset.wdg with again := (after (.next (raise inRun 2 0x2010 1))).wdg.h } }

/-- Step 9 while a join forms. -/
def joinForms : State := { starting .role 1 with join := { State.reset.join with st := 1 } }

/-- The executive reserve of the tick is spent. -/
def spent (s : State) : State := { s with ret := { s.ret with resv := 1000 } }

/-- Core 0 has trapped in cycle 20, and its service begins at once. -/
def serving : State := { loaded with cores := loaded.cores.map fun k => { k with cyc := 30 }, sv := { free := 0, queue := [⟨0, 20, 88, 20⟩] } }

/-- The record of step 8 names the image. -/
def recoverFits : State :=
  { recovering with ret := { recovering.ret with dir := [{ recOf .applied false with body := none, progid8 := List.replicate 8 0 }] } }

/-- Loop 0 with valid words for a run. -/
def tunable : State :=
  let w := fun (s : State) (o v : Nat) => withWord s (K.TUNEk_CTRL 0 + o) v
  inSession (w (w (w (w (w (w (w (w looped 1 0x10500) 2 0x3F800000) 3 64) 4 1) 5 0x3F800000) 6 0) 7 0) 8 0x3F800000)

/-- A lockout, and a module without owners. -/
def lockedOut : State := { inSession inRun with host := { (inSession inRun).host with lockEnd := some 2000 } }
def unowned : State := let s := inSession inRun; { s with trust := { s.trust with owners := Vector.replicate 4 ⟨[], false, false⟩ } }

/-- Three announcements of the shared address remain. -/
def announcing : State := { paired .active with host := { (paired .active).host with garp := 3, garpAt := 2600 } }
def announcingStandby : State := { paired .standby with host := announcing.host }

/-- Controller 0 without a limit of its bus-off states; CEDAR just serviced; step 6 in a module without owners. -/
def busNoLimit : State := withWord busOn (K.BUSk_BOFF_LIM 0) 0
def serviced : State := { inCedar with wdg := { inCedar.wdg with base := 90000 } }
def programUnowned : State := { starting .program 1 with trust := unowned.trust }

/-- Loop 0 DISABLED with a negative TF. -/
def loopBad : State := withWord loopOff (K.LOOPk_ENABLE 0 + 0x12) 0xBF800000

/-! ## Witnesses: states that meet the hypotheses of the statements -/

/-- A core that is ready, outside a delay slot, with room for a fault: hypotheses of the statements about instructions. -/
theorem witness_ready :
    ReadyFree loaded 0 ∧ loaded.cores[0].c1 = false ∧ loaded.wdg.h = none ∧ loaded.evr.queue.length < 64 := by unfold ReadyFree Ready; decide +kernel

/-- The same with results in flight, some of them due in the same cycle. -/
theorem witness_ready_in_flight :
    ReadyFree (inFlight loaded) 0 ∧ StoresBefore (inFlight loaded) 0 := by unfold ReadyFree Ready StoresBefore; decide +kernel

/-- A trap of another instruction of the tick has begun its service. -/
theorem witness_service_begun : ServiceBegun serving 0 ∧ NoWaits serving ∧ Ready serving 0 ∧ serviceWait serving 0 = 78 := by
  unfold ServiceBegun NoWaits Ready; decide +kernel

/-- A happening at the next edge, and one just before it; an input that changes after it. -/
theorem witness_late_happening :
    beyondEdge inRun (nextEdge inRun) = true ∧ beyondEdge inRun (nextEdge inRun - 1) = false ∧
    beyondEdge { dioRun with tick := { dioRun.tick with k := 0 } } (diDue { dioRun with tick := { dioRun.tick with k := 0 } } 24) = true := by decide +kernel

/-- A core in a delay slot. -/
theorem witness_ready_in_slot :
    Ready inSlot 0 ∧ (issueCtx inSlot 0).delay ≠ .none := by unfold Ready; decide +kernel

/-- EXT and INS: the widest field from bit 0, the last bit alone, and a field one bit too wide. -/
theorem witness_ext_field_at_end :
    (0 : RegNo).val + (31 : RegNo).val + 1 ≤ 32 ∧ (31 : RegNo).val + (0 : RegNo).val + 1 ≤ 32 ∧ 32 < (31 : RegNo).val + (1 : RegNo).val + 1 := by decide +kernel

/-- LDW of the last word of the segment at s2, and one word beyond it. -/
theorem witness_load_last_word :
    segOk (issueCtx loaded 0).s[2] false 4 1020 = true ∧ segOk (issueCtx loaded 0).s[2] false 4 1024 = false ∧ CleanWord loaded 0x100003FC := by unfold CleanWord; decide +kernel

/-- LDH at an odd offset is not permitted, LDB is. -/
theorem witness_load_unaligned :
    segOk (issueCtx loaded 0).s[2] false 2 3 = false ∧ segOk (issueCtx loaded 0).s[2] false 1 3 = true := by decide +kernel

/-- STB of the last byte of the segment, and one beyond it. -/
theorem witness_store_last_byte :
    segOk (issueCtx loaded 0).s[2] true 1 1023 = true ∧ segOk (issueCtx loaded 0).s[2] true 1 1024 = false ∧ StoresBefore loaded 0 := by unfold StoresBefore; decide +kernel

/-- LDP and STP in the circular segment at s4. -/
theorem witness_stepped_access :
    (2 : BitVec 2) ≠ 3 ∧ segOk (issueCtx loaded 0).s[4] false 4 ((issueCtx loaded 0).rg 4).toNat = true ∧
    segOk (issueCtx loaded 0).s[4] true 4 ((issueCtx loaded 0).rg 4).toNat = true ∧
    CleanWord loaded (physOf 0 (dBase (issueCtx loaded 0).s[4] + 0x40)) := by unfold CleanWord; decide +kernel

/-- Divisor 0, -2^31 by -1, and an ordinary divisor. -/
theorem witness_divide_edges :
    (issueCtx loaded 0).rg 0 = 0 ∧ ((issueCtx loaded 0).rg 7).toInt = -(2 ^ 31) ∧ ((issueCtx loaded 0).rg 6).toInt = -1 ∧
    (issueCtx loaded 0).rg 5 ≠ 0 := by decide +kernel

/-- RD even and odd. -/
theorem witness_divide_odd :
    (30 : RegNo).val % 2 = 0 ∧ (31 : RegNo).val % 2 = 1 := by decide +kernel

/-- Operands of a MAC in the X and the Y bank, and the wrong way round. -/
theorem witness_mac_banks :
    inX (issueCtx loaded 0).s[3] = true ∧ inY (issueCtx loaded 0).s[4] = true ∧ inX (issueCtx loaded 0).s[4] = false ∧
    segOk (issueCtx loaded 0).s[3] false 4 0x40 = true ∧ segOk (issueCtx loaded 0).s[4] false 4 0x40 = true := by decide +kernel

/-- A call through the first entry of the table at s0. -/
theorem witness_call_by_table :
    ReadyFree tableFar 0 ∧ (1 : RegNo) ≠ 0 ∧ (issueCtx tableFar 0).link.length < 16 ∧
    8 * ((issueCtx tableFar 0).rg 1).toNat + 7 ≤ dLimit (issueCtx tableFar 0).s[0] ∧
    dType (idtEntry tableFar 0 (issueCtx tableFar 0).s[0] 0 20) = 2 ∧ descOk (idtEntry tableFar 0 (issueCtx tableFar 0).s[0] 0 20) = true := by unfold ReadyFree Ready; decide +kernel

/-- A call at depth 15 of the link stack has room, one at depth 16 has none. -/
theorem witness_call_depth :
    (issueCtx deep 0).link.length = 16 ∧ ((issueCtx deep 0).link.drop 1).length < 16 ∧ ReadyFree deep 0 := by unfold ReadyFree Ready; decide +kernel

/-- A return at depth 16, and one at depth 0. -/
theorem witness_return_pops :
    (∃ e r, (issueCtx deep 0).link = e :: r) ∧ (issueCtx loaded 0).link = [] := ⟨⟨_, _, rfl⟩, by decide +kernel⟩

/-- A core whose task ends after this slot, with its list. -/
theorem witness_task_end :
    canIssue ending 0 = true ∧ (issueCtx ending 0).delay = .endTask 2100 ∧ taskList ending 0 = some list0 ∧ ending.cores[0].inEvt = false ∧
    ending.cores[0].replay = [] ∧ ending.cores[0].mbxOut[0].getLsbD 0 = ending.evr.toggle[0] ∧ ending.cores[0].mbxStq = [] := by decide +kernel

/-- In tick 5 entry 1 of the list is due, entry 0 as well; from 2 on none. -/
theorem witness_due_entry :
    nextDue list0 5 1 = some (1, ⟨0x80, 0, 1, 2, 0⟩) ∧ nextDue list0 5 2 = none ∧ nextDue list0 4 1 = none := by decide +kernel

/-- SLD of the table's first entry to s8, SMK of the pair g8:g9 to s15. -/
theorem witness_segment_load :
    (8 : SegNo).val = (8 : RegNo).val ∧ 8 * 0 + 7 ≤ dLimit (issueCtx withTable 0).s[0] ∧
    descOk (idtEntry withTable 0 (issueCtx withTable 0).s[0] 0 20) = true ∧
    descOk (mkDesc ((issueCtx withTable 0).rg 8) ((issueCtx withTable 0).rg 9)) = true := by decide +kernel

/-- An index beyond the table, a descriptor that fails, an odd pair, and registers outside s8 to s15. -/
theorem witness_segment_load_refused :
    dLimit (issueCtx withTable 0).s[0] < 8 * 8 + 7 ∧ descOk (mkDesc 0xFFFFFFFF 0xFFFFFFFF) = false ∧ (9 : RegNo).val % 2 = 1 ∧
    ((7 : RegNo).val < 8 ∧ 15 < (16 : RegNo).val) := by decide +kernel

/-- Offsets of the system window: the first and last word of MBX_OUT, one below, one above, one unaligned. -/
theorem witness_window_offsets :
    (0x200 : BitVec 12).toNat = 0x200 + 4 * (0 : Fin 16).val ∧ (0x23C : BitVec 12).toNat = 0x200 + 4 * (15 : Fin 16).val ∧
    (0x1FC : BitVec 12).toNat < 0x200 ∧ 0x23C < (0x240 : BitVec 12).toNat ∧ (0x041 : BitVec 12).toNat % 4 ≠ 0 := by decide +kernel

/-- DIV64U and DIV64S with even registers. -/
theorem witness_divide_pairs :
    (4 : RegNo).val % 2 = 0 ∧ (6 : RegNo).val % 2 = 0 := by decide +kernel

/-- Words of no row: one below the emulated opcodes, one of them, and one of opcode 16#3F. -/
theorem witness_illegal_words :
    decode 0 0x98000000 = none ∧ (0x98000000 : Word).toNat / 2 ^ 26 < 0x38 ∧ decode 0 0xE0000400 = none ∧
    0x38 ≤ (0xE0000400 : Word).toNat / 2 ^ 26 ∧ (0xE0000400 : Word).toNat / 2 ^ 26 < 0x3F ∧ decode 0 0xFFFFFFFF = none ∧
    (0xFFFFFFFF : Word).toNat / 2 ^ 26 = 0x3F := by decide +kernel

/-- A core that has had a C1 fault in this tick. -/
theorem witness_second_fault :
    Ready faulted 0 ∧ faulted.cores[0].c1 = true := by unfold Ready; decide +kernel

/-- NaN, zeros, a finite value and 2^31. -/
theorem witness_float_values :
    decide (0x7F800000 < (0x7FC00000 : Word).toNat % 2 ^ 31) = true ∧ (0x80000000 : Word).toNat % 2 ^ 31 = 0 ∧
    (0x3F800000 : Word).toNat % 2 ^ 31 < 0x7F800000 ∧ 0x4F000000 ≤ (0x4F000000 : Word).toNat := by decide +kernel

/-- A quotient of 2^32 - 1, one of 2^32, and the same for the signed range. -/
theorem witness_wide_divide :
    (0xFFFFFFFE * 2 ^ 32 + 0xFFFFFFFF) / 0xFFFFFFFF < 2 ^ 32 ∧ 2 ^ 32 ≤ (1 * 2 ^ 32 + 0) / 1 ∧
    ((0 : Int) * 2 ^ 32 + 0x7FFFFFFF).tdiv 1 < 2 ^ 31 ∧ 2 ^ 31 ≤ ((0 : Int) * 2 ^ 32 + 0x80000000).tdiv 1 := by decide +kernel

/-- A trigger of a bound source in RUN, and one that a STANDBY module ignores. -/
theorem witness_trigger_taken :
    tasked.mode = .run ∧ drives tasked.role = true ∧ (slotOf tasked 7).isSome = true ∧ cellsWf 0 tasked.mem.cells = true ∧
    standby.role = .standby := by decide +kernel

/-- An event task that may start. -/
theorem witness_event_taken :
    triggered.mode = .run ∧ drives triggered.role = true ∧ triggered.tick.phase = .l ∧ quiet triggered 0 = true ∧
    triggered.cores[0].st = .run ∧ taskList triggered 0 = some list0 ∧ takeSlot triggered 0 = some 0 ∧
    list0.slots[0]? = some ⟨0xC0, 0, 7, 1, 100⟩ := by decide +kernel

/-- A cyclic task and an event task that were abandoned. -/
theorem witness_abandoned_tasks :
    abandoned.cores[0].st = .aband ∧ abandoned.cores[0].inEvt = false ∧ taskList abandoned 0 = some list0 ∧
    abandonedEvt.cores[0].inEvt = true ∧ abandonedEvt.cores[0].resume = true := by decide +kernel

/-- A single-bit error, a double-bit error, and a scrub that meets the first. -/
theorem witness_latent_errors :
    flawed.mem.single.contains (eccWord 0x10000000) = true ∧ flawed.mem.double.contains (eccWord 0x10000000) = false ∧
    flawed2.mem.single.contains (eccWord 0x10000007) = false ∧ flawed2.mem.double.contains (eccWord 0x10000007) = true ∧
    executiveRuns flawed = true ∧ flawed.mem.single.Nodup := by decide +kernel

/-- Addresses of the home image's last byte, of the log, and of the array's last byte. -/
theorem witness_bit_error_places :
    0x7FFFFF < 0x800000 ∧ 0x800000 ≤ 0xBFFFFF ∧ 0xBFFFFF < 0xC00000 ∧ cellsWf 0 inRun.mem.cells = true := by decide +kernel

/-- Two stores of one cycle to one byte. -/
theorem witness_two_stores :
    ({ inRun.mem with stq := insertStore ⟨20, 1, 0x10000000, [7]⟩ (insertStore ⟨20, 2, 0x10000000, [9]⟩ []) } : Memory).stq.length = 2 := by decide +kernel

/-- A well-formed instruction with a word of its own. -/
theorem witness_encoded :
    (Instr.ldw 0 4 0 2 5).wf = true ∧ encode (.ldw 0 4 0 2 5) = some 0x58802005 ∧ decode 0 0x58802005 = some (.ldw 0 4 0 2 5) := by decide +kernel

/-- A link whose frames fit the period, and one whose frames do not. -/
theorem witness_link_fits :
    ParWf linkUp ∧ 40 * (24 + 32 * heads linkUp 0) + 60 * heads linkUp 0 + 2000 ≤ 1000 * periodT linkUp ∧ ParWf linkLong ∧
    1000 * periodT linkLong < 40 * (24 + 32 * heads linkLong 0) + 60 * heads linkLong 0 + 2000 := by unfold ParWf; decide +kernel

/-- A transmitting link, a safe burst with one frame left and one with two, and a link in LISTEN by its module's role. -/
theorem witness_link_states :
    1 ≤ linkState linkUp 0 ∧ linkState linkUp 0 ≤ 3 ∧ ParWf (bursting 1) ∧ (bursting 1).links[0].burst = 1 ∧
    (bursting 1).links[0].closing = true ∧ (bursting 2).links[0].burst = 2 ∧ (bursting 1).pair.relDue = false ∧ standby.role = .standby := by unfold ParWf; decide +kernel

/-- A link at its last failure but one. -/
theorem witness_link_loss :
    drives linkUp.role = true ∧ linkState linkUp 0 = 2 ∧ linkUp.links[0].burst = 0 ∧ linkUp.links[0].last ≠ none ∧
    answered linkUp.links[0] = none ∧ (linkUp.links[0].buf.getD 0 0).getLsbD 0 = false ∧
    linkUp.links[0].fail + 1 < rn linkUp (K.LINKk_LLOSS_LIM 0) ∧ rn linkUp (K.LINKk_LLOSS_LIM 0) ≤ (rn linkUp (K.LINKk_LLOSS_LIM 0) - 1) + 1 := by decide +kernel

/-- A counting port and its lines. -/
theorem witness_encoder_counts :
    encInc.enc.on = true ∧ encMode encInc 0 = 0 ∧ encInc.enc.ports[0].a = false ∧ encInc.enc.ports[0].b = false ∧ encOn encInc 0 = true := by decide +kernel

/-- A port whose supply is on. -/
theorem witness_encoder_supply :
    encSupplyOn encPowered 0 = true := by decide +kernel

/-- An SSI port with its request sent. -/
theorem witness_serial_port :
    encOn encSsi 0 = true ∧ encMode encSsi 0 = 1 ∧ encSsi.tick.seqOn = true ∧ encSsi.enc.ports[0].req = some 1900 ∧
    encSsi.enc.ports[0].brkB = false ∧ rn encSsi (K.ENCk_CODE 0) = 0 := by decide +kernel

/-- Ports for the writes of ENABLE and MODE. -/
theorem witness_encoder_words :
    ParWf inRun ∧ encMode inRun 0 = 0 ∧ encOn inRun 0 = false ∧ encBroken inRun 0 = false ∧ encOn encSsi 0 = true ∧ ParWf encSlow ∧
    encMode encSlow 0 ≠ 0 ∧ periodT encSlow < encLead encSlow 0 + rn encSlow (K.ENCk_TMONO 0) ∧ (2 : Word).toNat ≤ 2 := by unfold ParWf; decide +kernel

/-- The first due loop is OPEN; the same DISABLED. -/
theorem witness_loop_due :
    ParWf looped ∧ looped.loop.due = (0 : Fin 96).val :: [1] ∧ (loopRec looped 0).state ≠ 0 ∧ (loopRec loopOff 0).state = 0 ∧
    (loopRec looped 0).flag 2 = false ∧ (field (rw looped (K.LOOPk_REFMODE 0)) 1 0).toNat = 0 := by unfold ParWf; decide +kernel

/-- A valid DISABLED loop, an invalid one, and one beyond the image's. -/
theorem witness_loop_enable :
    (0 : Fin 96).val < nloop loopOff ∧ (loopRec loopOff 0).state = 0 ∧ loopCfgFail loopOff 0 = 0 ∧ loopCfgFail loopBad 0 ≠ 0 ∧
    (loopRec loopBad 0).state = 0 ∧ nloop loopOff ≤ (2 : Fin 96).val := by decide +kernel

/-- A run in IDENT. -/
theorem witness_identification :
    identifying.loop.run.isSome = true ∧ (identifying.loop.run.map fun r => (r.loop, r.ident, r.found)) = some (0, true, none) := by decide +kernel

/-- Frames that the filters send to a buffer, to the FIFO, and nowhere. -/
theorem witness_can_filters :
    busMode busOn 0 ≠ 0 ∧ busFilter busOn 0 (CanFrame.idw ⟨0, false, [1, 2]⟩) = some 0 ∧
    (field (rw busOn (K.BUSk_FDEST 0 0)) 7 6).toNat = 1 ∧ (field (rw busOn (K.BUSk_FDEST 0 0)) 4 0).toNat < busOn.bus[0].rxb.length ∧
    busFilter busOn 0 (CanFrame.idw ⟨0x20000001, false, [1]⟩) = some 1 ∧ (field (rw busOn (K.BUSk_FDEST 0 1)) 7 6).toNat = 2 := by decide +kernel

/-- A controller without a filter that matches, and a FIFO with and without room. -/
theorem witness_can_no_match :
    busMode busAlone 0 ≠ 0 ∧ busFilter busAlone 0 (CanFrame.idw ⟨0, false, []⟩) = none ∧ Machine.rb busAlone (K.BUSk_NOMATCH 0) 0 = false ∧
    fifoFull.bus[0].fifo.length = 16 ∧ busOn.bus[0].fifo.length < 16 := by decide +kernel

/-- A frame that is entered. -/
theorem witness_can_sent :
    (busEntered.bus[0].entered.find? (fun t => decide (t.buf = (15 : Fin 16).val))).isSome = true := by decide +kernel

/-- An error count of 255 and of 256, a controller that is bus-off, and one that recovers. -/
theorem witness_bus_off :
    busMode busOn 0 = 2 ∧ 255 ≤ 255 ∧ 255 < 256 ∧ rn busNoLimit (K.BUSk_BOFF_LIM 0) = 0 ∧ busMode busNoLimit 0 = 2 ∧
    (Tests.busOff false).bus[0].off = 1 ∧ rn (Tests.busOff false) (K.BUSk_BOFF_WAIT 0) ≤ (Tests.busOff false).bus[0].offTicks ∧
    (Tests.busOff true).bus[0].recov = true := by decide +kernel

/-- A window whose cell holds a SCHED frame that may be sent. -/
theorem witness_window_begins :
    busMode busSched 0 = 2 ∧ nextWindow busSched 0 busSched.bus[0].nextWin = some 0 ∧ busCell busSched 0 busSched.bus[0].cycNo 0 < 16 ∧
    busSched.bus[0].cur[busCell busSched 0 busSched.bus[0].cycNo 0]? = some (List.replicate 80 0) ∧
    busMaySched busSched 0 (busCell busSched 0 busSched.bus[0].cycNo 0) = true ∧ txInhibit (List.replicate 80 0) = false ∧
    txUnsendable busSched 0 (List.replicate 80 0) = false := by decide +kernel

/-- A controller whose configuration passes, and one whose configuration fails. -/
theorem witness_bus_enable :
    ParWf inRun ∧ Machine.rb inRun (K.BUSk_ENABLE 0) 0 = false ∧ busCfgFail inRun 0 = 0 ∧ Machine.rb inRun (K.BUSk_ENABLE 0) 0 = false ∧
    busCfgFail busBad 0 ≠ 0 ∧ Machine.rb busBad (K.BUSk_ENABLE 0) 0 = false := by unfold ParWf; decide +kernel

/-- Input 24 has changed and is unfiltered; input 1 has a wire break, input 2 none. -/
theorem witness_inputs :
    dioRun.dio.on = true ∧ dioRun.dio.di[24].init = false ∧ dioRun.dio.di[24].f ≠ dioRun.dio.di[24].raw ∧
    Machine.rb dioRun K.DIO_COS_EN 24 = true ∧ dioRun.dio.di[1].brk = true ∧ dioRun.dio.di[2].brk = false ∧
    Machine.rb dioRun K.DIO_WB_EN 2 = true ∧ dioRun.dio.cos.length ≤ 56 := by decide +kernel

/-- Output 0 is driven, waits, and holds in a try. -/
theorem witness_outputs :
    dioOn dioRun = true ∧ dioRun.dio.do_[0].rel = true ∧ groupOn dioRun 0 = true ∧ Machine.rb dioRun K.DIO_OL_EN 0 = true ∧
    dioRun.dio.do_[leader dioRun 0].openLd = false ∧ (retrying 1).dio.do_[0].retry = 1 ∧ (retrying 1).dio.do_[0].left = none ∧
    (retrying 3).dio.do_[0].retry = 3 := by decide +kernel

/-- The last try of an output that RETRY_LIM limits to three. -/
theorem witness_output_latches :
    rn retryLast K.DIO_RETRY_LIM = 3 ∧ (retryLast.dio.do_[leader retryLast 0]).retry = 3 ∧
    3 ≤ (retryLast.dio.do_[leader retryLast 0]).fails + 1 := by decide +kernel

/-- A panel that is off with a good and with a failing configuration, and one that works. -/
theorem witness_panel_enable :
    ParWf inRun ∧ Machine.rb inRun K.PANEL_ENABLE 0 = false ∧ panelCfgFail inRun = 0 ∧ Machine.rb inRun K.PANEL_ENABLE 0 = false ∧
    panelCfgFail panelBad ≠ 0 ∧ Machine.rb panelBad K.PANEL_ENABLE 0 = false ∧ Machine.rb panelRun K.PANEL_ENABLE 0 = true ∧
    dioOn inRun = false := by unfold ParWf; decide +kernel

/-- The last line of a region and the one before it. -/
theorem witness_panel_line :
    panelRun.panel.lineAt = some 1800 ∧ (panelJ panelRun).runR = some 0 ∧ (regLines panelRun 0)[(panelJ panelRun).line]?.isSome = true ∧
    (panelJ panelRun).line + 1 < (regLines panelRun 0).length ∧ (regLines panelLast 0)[(panelJ panelLast).line]?.isSome = true ∧
    ¬(panelJ panelLast).line + 1 < (regLines panelLast 0).length := by decide +kernel

/-- Rails that start, stand and discharge; a blinking region. -/
theorem witness_panel_rails :
    (panelRails 1).panel.rails = 1 ∧ panelRun.panel.rails = 2 ∧ (panelJ panelRun).runR ≠ none ∧ (panelRails 2).panel.lineAt = none ∧
    (panelJ (panelRails 2)).runR = none ∧ rn (panelRails 2) K.PANEL_RAIL_IDLE ≠ 0 ∧ (panelRails 3).panel.rails = 3 ∧
    (panelRun.panel.blink.find? (fun x => decide (x.1 = (0 : Fin 16).val))).isSome = true ∧ panelWorks panelRun = true := by decide +kernel

/-- The last second of 29 February 2000 and the last one of 2399. -/
theorem witness_calendar_ends :
    leapEnd.rtc.t.day ≤ monthDays leapEnd.rtc.t.year leapEnd.rtc.t.month ∧ leapEnd.rtc.t.sec < 60 ∧ leapEnd.rtc.t.min_ < 60 ∧
    leapEnd.rtc.t.hour < 24 ∧ 1 ≤ leapEnd.rtc.t.month ∧ 2000 ≤ leapEnd.rtc.t.year ∧
    calendarEnd.rtc.t.day ≤ monthDays calendarEnd.rtc.t.year calendarEnd.rtc.t.month ∧ calendarEnd.rtc.t.year ≤ 2399 := by decide +kernel

/-- The clock on its rail with the charge on, and on its backup. -/
theorem witness_clock_supplies :
    ParWf clockRail ∧ Machine.rb clockRail K.RTC_CHARGE 0 = true ∧ State.reset.rtc.backup = true ∧ ParWf State.reset := by unfold ParWf; decide +kernel

/-- 29 February 2000 can be set, 29 February 2100 cannot. -/
theorem witness_set_words :
    (setTime (setWords 2000)).day ≤ monthDays (setTime (setWords 2000)).year (setTime (setWords 2000)).month ∧
    (setTime (setWords 2000)).sub ≤ 1023 ∧
    ¬(setTime (setWords 2100)).day ≤ monthDays (setTime (setWords 2100)).year (setTime (setWords 2100)).month := by decide +kernel

/-- A session with frozen fields, at its last instant, and one without. -/
theorem witness_time_shadow :
    frozen.rtc.shadow[0] = some (1900, List.replicate 10 7) ∧ frozen.rtc.shadow[1] = none ∧ max frozen.now 101899 < 1900 + 100000 := by decide +kernel

/-- The longest record, and one that ends with the ring. -/
theorem witness_record_room :
    (recording 64 0 false).evr.scanning = false ∧ (recording 64 0 false).mode ≠ .off ∧ 0 + recSize 64 ≤ ringSize ∧
    262120 + recSize 0 ≤ ringSize ∧ cellsWf 0 (recording 64 0 false).evr.ring = true := by decide +kernel

/-- An occurrence that matches an open burst, and the burst that ends first. -/
theorem witness_burst_open :
    burstOf bursts ⟨1500, 0x4005, List.replicate 4 7, true, false⟩ = some ⟨0x4005, List.replicate 4 7, 32, 1000⟩ ∧
    leNat (cellBytes 0 bursts.evr.ring (32 + 16) 4) < 0xFFFFFFFF ∧
    burstEnd bursts ⟨0x4006, [], 0, 900⟩ < burstEnd bursts ⟨0x4005, List.replicate 4 7, 32, 1000⟩ ∧ bursts.evr.bursts.Nodup := by decide +kernel

/-- A ring that waits for its scan. -/
theorem witness_ring_scan :
    scanning.evr.scanning = true ∧ scanning.start.kind ≠ 1 := by decide +kernel

/-- A restart that is due; a watchdog that can have expired, and one that cannot. -/
theorem witness_restart_due :
    restarting.wdg.restartDue = true ∧ restarting.power.pf = none ∧ failing.power.pf ≠ none ∧ inRun.wdg.restartDue = false ∧ inCedar.wdg.running = true ∧
    10000 * rn inCedar K.WDG_W_CLOSE ≤ 105 * (max inCedar.now 3000000 - inCedar.wdg.base) ∧
    105 * (max serviced.now 0 - serviced.wdg.base) < 10000 * rn serviced K.WDG_W_CLOSE := by decide +kernel

/-- Services at both bounds of the window, and an early one. -/
theorem witness_cedar_window :
    ParWf inCedar ∧ inCedar.mode = .cedar ∧ inCedar.start.step ≠ .ready ∧ rn inCedar K.WDG_W_OPEN ≤ 200 ∧ 299 < rn inCedar K.WDG_W_CLOSE ∧
    199 < rn inCedar K.WDG_W_OPEN := by unfold ParWf; decide +kernel

/-- A record that is open, and one that is sealed. -/
theorem witness_commit_records :
    openRec (committing .open_) = some (recOf .open_ false) ∧ (recOf .open_ false).st = .open_ ∧
    openRec (committing .sealed) = some (recOf .sealed false) ∧ (recOf .sealed false).mirror = false ∧ Alone (committing .sealed) ∧
    (committing .sealed).ret.acks = [] ∧ cellsWf 0 (committing .sealed).ret.home = true ∧
    (((recOf .sealed false).body.map fun b => b.homeLines.map Prod.fst) = some [0x4000]) := by unfold Alone; decide +kernel

/-- A member of a pair, and an ACTIVE one whose other lane is dark. -/
theorem witness_lanes :
    sReceives (paired .active) = true ∧ pairUnitOn oneLane = true ∧ laneSt oneLane 0 = 2 ∧ oneLane.role = .active ∧ sOn oneLane = true ∧
    (∀ l : Fin 4, l.val < 2 → l ≠ 0 → laneSt oneLane l = 0) := by decide +kernel

/-- A lease that has run out and one that has not; a standby before and after its deadline; a RELEASE. -/
theorem witness_lease :
    leaseOut.tick.seqOn = true ∧ leaseDue leaseOut (nextEdge leaseOut) = true ∧
    leaseDue (paired .active) (nextEdge (paired .active)) = false ∧ sReceives silent = true ∧ silent.pair.entitled = none ∧
    silent.pair.gaveUp = false ∧ inQuad silent = false ∧ reachable silent = false ∧ sDark silent = false ∧
    silent.pair.rcvTs + leaseSpan silent ≤ max silent.now (1500 + leaseSpan silent) ∧
    max silent.now 2500 < silent.pair.rcvTs + leaseSpan silent ∧ newEpoch silent ≤ 0xFFFFFFFF := by decide +kernel

/-- A standby with one line of a record, whole for its seal. -/
theorem witness_mirror :
    laneSt mirroring (sLane 0) ≠ 0 ∧ takesMirror mirroring = true ∧ mirroring.pair.xpair = false ∧
    (∀ e ∈ mirroring.pair.rx, tagSeq e.2.1 = tagSeq (5 * 2 ^ 48 + 0x4001) ∧ e.1 ≠ 1) ∧ lastSeal mirroring = none ∧
    rxLines mirroring.pair.rx 1 = some [(0x4000, List.replicate 64 1)] ∧ lastMirror mirroring < 5 ∧ 5 = lastMirror mirroring + 1 ∧
    openRec mirroring = none := by decide +kernel

/-- A SYNCING module, and an ACTIVE one that waits for confirmations. -/
theorem witness_resync :
    takesMirror (paired .syncing) = true ∧ (paired .syncing).role = .syncing ∧ (paired .syncing).pair.xpair = false ∧
    cellsWf 0 (paired .syncing).mem.cells = true ∧ cellsWf 0 (paired .syncing).ret.home = true ∧ 0x1EFFF < 126976 ∧
    sReceives unconfirmed4 = true ∧ unconfirmed4.role = .active := by decide +kernel

/-- A standby with its program in slot 0, and one that already exchanges. -/
theorem witness_standby_exchange :
    takesMirror standbySlot = true ∧ laneSt standbySlot (sLane 0) ≠ 0 ∧ standbySlot.role = .standby ∧ standbySlot.pair.xpair = false ∧
    standbySlot.upd.active ≤ 1 ∧ takesMirror standbyXpair = true ∧ standbyXpair.role = .standby ∧ standbyXpair.pair.xpair = true ∧
    exchangeCheck (setNow standbySlot 2500) 0xFF (1 - standbySlot.upd.active) ≠ stOk := by decide +kernel

/-- A join that forms with a partner that matches, and a joined one. -/
theorem witness_join_packets :
    pairUnitOn (joining 1) = true ∧ jOn (joining 1) = true ∧ (joining 1).join.st = 1 ∧
    joinMatches (joining 1) (jhbOf (peerProg (joining 1))) = true ∧ (joining 2).join.st = 2 ∧ ticking (joining 2).mode = true ∧
    (jhbOf [1]).progid8 ≠ peerProg (joining 2) ∧ jReceives (joining 2) 0 = true ∧ (joining 2).join.rxTick = 65536 % 65536 ∧
    (joining 2).join.rxTick ≠ 65535 % 65536 ∧ (joining 2).join.rxEnd = none := by decide +kernel

/-- A joined module, and a quad. -/
theorem witness_join_control :
    jReceives (joining 2) 1 = true ∧ (joining 2).join.st = 2 ∧ (joining 2).mode = .run ∧ inQuad (joining 2) = false ∧
    (joining 2).join.policy = 0 ∧ (joining 2).exch.st ≠ 4 ∧ inQuad quad = true := by decide +kernel

/-- A member of a quad that is entitled alone, before and after its wait. -/
theorem witness_quad_wait :
    inQuad quad = true ∧ quad.pair.entitled.isSome = true ∧ quad.join.peerEnt = none ∧ quad.join.ent = some 1000 ∧
    quad.join.qwait = false ∧ 1000 + leaseSpan quad ≤ max quad.now (1000 + leaseSpan quad) ∧ max quad.now 2500 < 1000 + leaseSpan quad := by decide +kernel

/-- OFF, and RESET without L+. -/
theorem witness_power_up :
    State.reset.mode = .off ∧ 18800 ≤ 18800 ∧ inRun.mode ≠ .off ∧ resetDark.mode = .reset ∧ resetDark.power.present = false := by decide +kernel

/-- Both group supplies present, and one absent. -/
theorem witness_group_supply :
    inRun.mode ≠ .off ∧ inRun.evr.queue.length < 64 ∧ inRun.power.m1 = true ∧ inReset.power.m1 = false ∧ State.reset.mode = .off ∧
    State.reset.power.m1 = false ∧ { State.reset with power := inRun.power }.power.m1 = true ∧ State.reset.evr.queue.length < 64 := by decide +kernel

/-- RESET at the first instant at which it may be left, and one before it. -/
theorem witness_reset_release :
    inReset.mode = .reset ∧ inReset.power.present = true ∧ inReset.power.since + 1000000 ≤ max inReset.now 1000000 ∧
    max inReset.now 999999 < inReset.power.since + 1000000 ∧ inReset.start.kind = 1 ∧ inReset.ret.dir = [] := by decide +kernel

/-- Step 3 with one valid boot record, without a valid one, and without a carrier. -/
theorem witness_boot_step :
    (starting .boot 1).start.step = .boot ∧ carrierOk (starting .boot 1) = true ∧ bootValid (bootCopy (starting .boot 1) 0) = true ∧
    bootValid (bootCopy (starting .boot 1) 1) = false ∧ carrierOk noCarrier = false ∧ noCarrier.start.step = .boot ∧
    carrierOk noRecord = true ∧ bootValid (bootCopy noRecord 0) = false ∧ bootValid (bootCopy noRecord 1) = false := by decide +kernel

/-- A level-2 and a level-1 start at step 3 whose boot record names the executive that runs, and one whose record names another slot. -/
theorem witness_boot_again :
    (starting .boot 2).start.kind ≠ 3 ∧ (starting .boot 2).start.kind ≠ 4 ∧ (starting .boot 3).start.kind = 3 ∧
    fld (bootCopy (starting .boot 3) 0) 4 1 = (starting .boot 3).upd.booted ∧ bootElsewhere.start.kind = 4 ∧
    fld (bootCopy bootElsewhere 0) 4 1 ≠ bootElsewhere.upd.booted ∧ bootElsewhere.start.step = .boot := by decide +kernel

/-- A level-1 start with and without the cause of its ladder decision. -/
theorem witness_remeasure :
    (starting .exec 3).start.step = .exec ∧ (starting .exec 3).start.kind = 3 ∧ (starting .exec 3).wdg.again = none ∧
    onceFaulted.wdg.again.isSome = true ∧ onceFaulted.wdg.h = none := by decide +kernel

/-- Step 4 of a cold kind with an executive that fails, and of a level-1 restart. -/
theorem witness_exec_step :
    (starting .exec 1).start.step = .exec ∧ (starting .exec 1).start.kind ≠ 3 ∧ execOk (starting .exec 1) 0 = false ∧
    (starting .exec 3).start.kind = 3 := by decide +kernel

/-- Step 6 with a program that no owner signed. -/
theorem witness_program_step :
    programUnowned.start.step = .program ∧ (ownerOf programUnowned 0).isSome = false := by decide +kernel

/-- Step 8 with an APPLIED record of the program, and with a commanded cold start. -/
theorem witness_recover_step :
    recovering.start.step = .recover ∧ recovering.prog = some img ∧ recovering.ret.j.cold = false ∧
    (∀ r ∈ recovering.ret.dir, r.st ≠ .sealed) ∧ recovering.ret.badHome = [] ∧ recovering.ret.badJourn = [] ∧
    recovering.ret.mramSingle = [] ∧ recovering.start.cold = none ∧ (lastRec recovering).isSome = true ∧ coldDue.ret.j.cold = true ∧
    coldDue.start.cold = none ∧ lastRec (starting .recover 1) = none ∧ coldMarked.start.cold = some 3 ∧ coldMarked.prog = some img := by decide +kernel

/-- The record's program is the image's. -/
theorem witness_recover_fits :
    coldReason recoverFits img = 0 ∧ (lastRec recoverFits).isSome = true ∧ recoverFits.start.step = .recover ∧ recoverFits.prog = some img ∧
    recoverFits.ret.badLog = [] ∧ (∀ d ∈ recoverFits.ret.dir, d.progid8 = padTo 8 (img.progid.take 8) ∧ d.st = .applied) := by decide +kernel

/-- Step 9 without port S, with an ACTIVE partner, and alone before and after the wait. -/
theorem witness_role_step :
    (starting .role 1).start.step = .role ∧ (starting .role 1).join.st ≠ 1 ∧ joinForms.join.st = 1 ∧ joinForms.join.got = false ∧
    max joinForms.now 2500 < joinForms.start.roleTs + 10000000 ∧ sOn (starting .role 1) = false ∧
    sOn (choosing (some 2)) = true ∧ (hbOf 1).role = 1 ∧ (choosing none).pair.peer = none ∧ (choosing none).pair.witness = none ∧
    reachable (choosing none) = false ∧ (choosing none).ret.x.incomplete = false ∧
    (choosing none).start.roleTs + leaseSpan (choosing none) ≤ max (choosing none).now 250000000 ∧
    max (choosing none).now 2500 < (choosing none).start.roleTs + leaseSpan (choosing none) := by decide +kernel

/-- RUN and RESET with L+ present, and a power-fail sequence that runs. -/
theorem witness_power_loss :
    ticking inRun.mode = true ∧ inRun.power.present = true ∧ inRun.power.pf = none ∧ inReset.mode = .reset ∧ inReset.power.pf = none ∧
    failing.power.pf = some (2000, true) := by decide +kernel

/-- DORMANT with one source enabled. -/
theorem witness_wake :
    dormant.power.pf = none ∧ dormant.mode = .dormant ∧ dormant.power.wake = 0 ∧ Machine.rb dormant K.POWER_WAKE_CTRL 3 = true ∧
    Machine.rb dormant K.POWER_WAKE_CTRL 4 = false := by decide +kernel

/-- A tick that is over, a start that is ready for its first edge, and CEDAR. -/
theorem witness_edges :
    tickOver.tick.seqOn = true ∧ ticking tickOver.mode = true ∧ Alone tickOver ∧ tickOver.tick.newprog = false ∧ readyToRun.mode = .cedar ∧
    readyToRun.start.step = .ready ∧ readyToRun.start.served = true ∧ Alone readyToRun ∧ inCedar.mode = .cedar ∧
    inCedar.start.step ≠ .ready ∧ inCedar.power.pf = none ∧ State.reset.tick.seqOn = false := by unfold Alone; decide +kernel

/-- Phase I of a tick that runs tasks. -/
theorem witness_phase_l :
    inPhaseI.tick.phase = .i ∧ runsTasks inPhaseI = true ∧ taskList inPhaseI 0 = some list0 ∧ inPhaseI.ret.j.forces = [] ∧
    nextDue list0 inPhaseI.tick.n 0 = some (1, ⟨0x80, 0, 1, 2, 0⟩) ∧ bankBad inPhaseI (idtWords 0 list0.s0 0) = false ∧
    instLoad inPhaseI 0 list0.s0 0 8 = some (mkDesc 0x10000000 0x230003FF) ∧ instLoad { inPhaseI with mem := inRun.mem } 0 list0.s0 0 8 = none := by decide +kernel

/-- The end of Phase L with and without an overrun. -/
theorem witness_phase_o :
    phaseOver.tick.phase = .l ∧ phaseOver.mode = .run ∧ Alone phaseOver ∧ phaseOver.wdg.h = none ∧ phaseOver.wdg.restartDue = false ∧
    overruns phaseOver = [] ∧ phaseOver.mem.double = [] ∧ openRec phaseOver = none ∧ phaseOver.ret.mergeFrom = none ∧
    phaseOver.host.ready = [] ∧ overruns running ≠ [] ∧ Alone running := by unfold Alone; decide +kernel

/-- A session in turn while ticks run. -/
theorem witness_in_turn :
    InTurn (inSession inRun) (reqNo 3) ∧ ticking (inSession inRun).mode = true ∧ Served (inSession inRun) 0 := by unfold Served Alone InTurn; decide +kernel

/-- A request in front that fits. -/
theorem witness_phase_o_serves :
    (waiting inRun .restart).host.ready = [(0, 3, .restart)] ∧ (waiting inRun .restart).power.dorm = none ∧
    (waiting inRun .restart).pair.swap = none ∧ (waiting inRun .restart).host.done = [] ∧ (waiting inRun .restart).host.hellos = [] ∧ reqFits (waiting inRun .restart) 0 .restart = true := by decide +kernel

/-- A batch of 64 items that the reserve holds, one that it does not hold, and a ninth batch. -/
theorem witness_batches :
    (inSession inRun).ret.x.edits.length < 8 ∧ workCost (.edit (List.replicate 64 item0)) ≤ resvLeft (inSession inRun) ∧
    workCost (.edit [item0]) ≤ resvLeft editsFull ∧ resvLeft (spent (inSession inRun)) < workCost (.edit [item0]) ∧
    resvLeft (spent (inSession inRun)) < 2 ∧ InTurn (spent (inSession inRun)) (reqNo 3) ∧ Served (spent (inSession inRun)) 0 ∧ 8 ≤ editsFull.ret.x.edits.length ∧ InTurn editsFull (reqNo 3) ∧ Served editsFull 0 := by unfold Served Alone InTurn; decide +kernel

/-- SAFE with a privileged session, and a DORMANT that waits. -/
theorem witness_safe_mode :
    (inSession { inRun with mode := .safe }).mode = .safe ∧ (inSession { inRun with mode := .safe }).ret.j.hdrs[0].priv = true ∧
    (waiting inRun .dormant).tick.phase = .l ∧ (waiting inRun .dormant).host.ready = [((0 : Fin 8).val, 3, .dormant)] ∧
    Served (waiting inRun .dormant) 0 := by unfold Served Alone; decide +kernel

/-- A run of this session, a proposal, a capture that holds, and an OPEN loop for a new one. -/
theorem witness_tune_requests :
    Served tuning 0 ∧ (0 : Fin 96).val < nloop tuning ∧ (tuning.loop.run.map fun r => (r.loop, r.owner)) = some (0, some 0) ∧
    (field (rw proposed (K.TUNEk_PROP_STATE 0)) 1 0).toNat = 1 ∧ (loopRec proposed 0).state ≤ 1 ∧ RetWordsWf proposed ∧
    holding.loop.cap.st = 3 ∧ holding.loop.cap.owner = some 0 ∧ holding.loop.run = none ∧ (loopRec (inSession looped) 0).state = 1 ∧
    capBusy (inSession looped) = false := by unfold Served Alone RetWordsWf; decide +kernel

/-- A loop whose TUNE words permit a run. -/
theorem witness_tune_start :
    Served tunable 0 ∧ loopCfgFail tunable 0 = 0 ∧ tuneCfgOk tunable 0 = true ∧ (loopRec tunable 0).state = 1 ∧
    (loopRec tunable 0).flag 2 = false ∧ capBusy tunable = false := by unfold Served Alone; decide +kernel

/-- A planned swap that may begin, and one that may not. -/
theorem witness_swap_request :
    swapCheck master = stOk ∧ master.host.ready = [((0 : Fin 8).val, 3, .pairSwap)] ∧ workFits master 0 2 = true ∧
    master.ret.j.hdrs[0].priv = true ∧ master.mode = .run ∧ swapCheck (inSession inRun) ≠ stOk ∧ drives (inSession inRun).role = true := by decide +kernel

/-- An exchange whose preload is due. -/
theorem witness_preload :
    preloading.exch.image = some img ∧ preloading.exch.st = 1 ∧ preloading.exch.loaded = false ∧ preloading.exch.pair = false ∧
    cellsWf 0 preloading.mem.cells = true ∧ (∀ q ∈ img.code, q.1 < 8 ∧ q.2.length ≤ 0x20000) := by decide +kernel

/-- A free slot and none. -/
theorem witness_sessions :
    serves inRun = true ∧ (List.replicate 88 (1 : Byte)).length = 88 ∧ freeSlot inRun = some 0 ∧ freeSlot allOpen = none ∧
    3 ≤ resvLeft inRun ∧ inRun.host.hellos = [] ∧ direct inCedar = true ∧ direct (spent inRun) = false ∧ resvLeft (spent inRun) < 3 ∧
    (∀ i : Fin 8, allOpen.ret.j.hdrs[i].open_ = true → allOpen.ret.j.hdrs[i].hrand8 ≠ ((List.replicate 88 (1 : Byte)).drop 56).take 8) := by decide +kernel

/-- READ of the whole range, AUTH and CLOSE in CEDAR, a session that has been idle, a lockout. -/
theorem witness_session_requests :
    Served (inSession inRun) 0 ∧ (inSession inRun).ret.x.edits = [] ∧ 65280 + 256 ≤ 65536 ∧ InTurn cedarSession (reqNo 3) ∧
    cedarSession.mode = .cedar ∧ cedarSession.host.lockEnd = none ∧ cedarSession.host.sess[0].hrand ≠ [] ∧
    (inSession inRun).host.sess[0].idleTs + 100000000 * rn (inSession inRun) K.HOST_SESS_TO ≤ max (inSession inRun).now 6000000000 ∧
    lockedOut.host.lockEnd = some 2000 := by unfold Served Alone InTurn; decide +kernel

/-- A closed session, a wrong TAG, and numbers at the window's edges. -/
theorem witness_requests_not_taken :
    serves (inSession inRun) = true ∧ (inSession inRun).ret.j.hdrs[1].open_ = false ∧ (inSession inRun).ret.j.hdrs[0].nonce = 77 ∧
    (inSession inRun).ret.jd.hdrs[0].next + 16 ≤ 19 ∧ (inSession inRun).ret.jd.hdrs[0].next ≤ 3 ∧ 2 < (inSession inRun).host.sess[0].x ∧
    (inSession inRun).ret.jd.hdrs[0].next ≤ 18 ∧ 18 < (inSession inRun).ret.jd.hdrs[0].next + 16 ∧ (inSession inRun).mode ≠ .dormant := by decide +kernel

/-- CEDAR and DORMANT with a session in turn. -/
theorem witness_requests_elsewhere :
    InTurn cedarSession (reqNo 3) ∧ cedarSession.ret.j.hdrs[0].priv = true ∧ InTurn dormantSession (reqNo 3) ∧
    dormantSession.power.wake = 0 ∧ dormantSession.power.pf = none := by unfold InTurn; decide +kernel

/-- A slot that may be opened, a block that may be taken, the holder and another. -/
theorem witness_update_open :
    Served noUpdate 0 ∧ noUpdate.upd.op = .none ∧ noUpdate.upd.recovering = false ∧ noUpdate.upd.waiting = [] ∧
    updBusy noUpdate 0 = false ∧ 1 ≠ noUpdate.upd.active ∧ (car noUpdate).prot = false ∧ 1024 ≤ slotSize noUpdate ∧
    blockFail (updating .none) 0 1016 (List.replicate 8 1) = 0 ∧ (car (updating .none)).holder = 0 ∧ (car (updating .none)).holder ≠ 1 := by unfold Served Alone; decide +kernel

/-- Operations under way, an erase to repair, and an update that has been idle. -/
theorem witness_carrier_operations :
    (updating .erase).upd.op = .erase ∧ carDurable (updating .erase) = true ∧ cellsWf 0xFF (updating .erase).upd.car.cells = true ∧
    ticking (updating .erase).mode = true ∧ repairing.upd.recovering = true ∧ startReads repairing = false ∧ carDurable repairing = true ∧
    (car repairing).opkind = 1 ∧ (car repairing).holder ≠ 0xFF ∧ repairing.upd.idleTs + 6000000000 ≤ max repairing.now 6000000000 := by decide +kernel

/-- Two owners, one owner, none, and a program of rollback step 5. -/
theorem witness_owners :
    Served owned 0 ∧ owned.trust.owners[0].enrolled = true ∧ (∃ q : Fin 4, q ≠ 0 ∧ owned.trust.owners[q].enrolled = true ∧
    owned.trust.owners[q].revoked = false) ∧ (List.replicate 57 (1 : Byte)).length = 57 ∧ unowned.trust.owners[0].enrolled = false ∧
    Served unowned 0 := by unfold Served Alone; decide +kernel

/-- A program whose rollback step is above the counter. -/
theorem witness_rollback :
    Served stepFive 0 ∧ stepFive.prog.isSome = true ∧ (stepFive.prog.map fun g => g.rollback) = some 5 ∧
    { stepFive with trust := { stepFive.trust with rollback := 4 } }.trust.rollback < 5 := by unfold Served Alone; decide +kernel

/-- A module that answers at its address, and the holder of the Pearl with announcements left. -/
theorem witness_network :
    serves inRun = true ∧ inRun.mode ≠ .off ∧ ParWf inRun ∧ 0 < announcing.host.garp ∧ hasPearl announcing = true ∧
    0 < announcingStandby.host.garp ∧ hasPearl announcingStandby = false := by unfold ParWf; decide +kernel

/-- A reserved word, a privileged one, a read-clear one and a plain one in and out of its range. -/
theorem witness_register_words :
    serves (inSession inRun) = true ∧ (inSession inRun).ret.j.hdrs[0].open_ = true ∧
    precheck (inSession inRun) 0 (.read 0x500 0xE 1 0 0) = stOk ∧ precheck (inSession inRun) 0 (.write [⟨0xE00, 6, 60000⟩] 0) = stOk ∧
    precheck dormantSession 0 (.read 0x500 0xE 1 0 0) ≠ stOk ∧ (inSession inRun).dio.on = false ∧ ParWf (inSession inRun) ∧
    RetWordsWf (inSession inRun) ∧ wordSpec 0x500FFFF = none ∧ ((wordSpec 0x500000E).map fun r => r.rc) = some true ∧
    ((wordSpec K.EVR_BURST_MS).map fun r => (r.wr, r.priv)) = some (true, true) ∧ (inSession inRun).ret.j.hdrs[0].priv = true ∧
    wordChk (inSession inRun) K.EVR_BURST_MS 60000 = some 60000 ∧ wordChk (inSession inRun) K.EVR_BURST_MS 60001 = none ∧
    enableWrite (inSession inRun) K.EVR_BURST_MS 60000 = none := by unfold ParWf RetWordsWf; decide +kernel

/-- A canonical state that a step leads on from. -/
theorem witness_canonical_runs :
    Canonical inRun := by unfold Canonical ParWf; decide +kernel

/-! ## Well-formedness: an ill-formed command for every check -/

theorem test_wf_ext_leaves_word : (Instr.ext 0 1 2 true 16 16).wf = false := by decide
theorem test_wf_ins_leaves_word : (Instr.ins 0 1 2 0 31).wf = true ∧ (Instr.ins 0 1 2 1 31).wf = false := by decide
theorem test_wf_ldp_size : (Instr.ldp 0 1 2 3 3 0).wf = false := by decide
theorem test_wf_stp_size : (Instr.stp 0 1 2 3 3 0).wf = false := by decide
theorem test_wf_divs_pair : (Instr.divs 0 5 1 2).wf = false := by decide
theorem test_wf_divu_pair : (Instr.divu 0 31 1 2).wf = false := by decide
theorem test_wf_div64u_pairs : (Instr.div64u 0 4 7 2).wf = false ∧ (Instr.div64u 0 5 6 2).wf = false := by decide
theorem test_wf_div64s_pairs : (Instr.div64s 0 4 7 2).wf = false ∧ (Instr.div64s 0 5 6 2).wf = false := by decide
theorem test_wf_sld_register : (Instr.sld 0 7 1 0).wf = false ∧ (Instr.sld 0 16 1 0).wf = false := by decide
theorem test_wf_smk_register_and_pair : (Instr.smk 0 7 2).wf = false ∧ (Instr.smk 0 8 3).wf = false ∧ (Instr.smk 0 15 2).wf = true := by decide

/-! ## Words written out from the encoding tables -/

/-- Table 4-12, and the first MAC of the filter below it. -/
theorem test_word_ldw : decode 0 0x58802005 = some (.ldw 0 4 0 2 5) := by decide +kernel
theorem test_word_ori : decode 0 0x2CA0999A = some (.ori 0 5 0 0x999A) := by decide +kernel
theorem test_word_orhi : decode 0 0x34A55999 = some (.orhi 0 5 5 0x5999) := by decide +kernel
theorem test_word_mulq : decode 0 0x70C42803 = some (.mulq 0 6 4 5) := by decide +kernel
theorem test_word_stw : decode 0 0x64C03002 = some (.stw 0 6 0 3 2) := by decide +kernel
theorem test_word_mac : decode 3 0x808952C2 = some (.mac 3 0 8 9 10 11 0 0 true false) := by decide +kernel
/-- R85, Table 4-13: RET has no field; any other word of its opcode is illegal. -/
theorem test_word_nop_and_ret : decode 0 0 = some (.nop 0) ∧ decode 0 0xB4000000 = some (.ret 0 0) ∧ decode 0 0xB4000001 = none := by decide +kernel
/-- The rows of the table have no bits (log 1). -/
theorem test_table_word : decodeTableWord 32 0x34A55999 = none := rfl

/-! ## Single steps -/

/-- Register `r` of core 0 `d` cycles after the instruction. -/
def later (i : Instr) (s : State) (d : Nat) (r : RegNo) : Word := (regsAt (after (exec i s)) 0 (s.cores[0].cyc + d)).rg r

/-- Core 0 with g4 and g5 as given. -/
def withPair (a b : Word) : State := onCtx loaded fun x => { x with g := (x.g.set 4 a).set 5 b }

/-- Table 4-12, cycle 308: 0.5 by 0.7 is 16#2CCC_CCCD, three cycles later and not before. -/
theorem test_mulq_gain : later (.mulq 0 6 4 5) (withPair 0x40000000 0x5999999A) 3 6 = 0x2CCCCCCD ∧
    later (.mulq 0 6 4 5) (withPair 0x40000000 0x5999999A) 2 6 = 0xFFFFFFFF := by decide +kernel
/-- With the stale g4 = 0 it gives 0. -/
theorem test_mulq_stale : later (.mulq 0 6 4 5) (withPair 0 0x5999999A) 3 6 = 0 := by decide +kernel
/-- R137: the Q31 product of -1 and -1, read by ASATQ, is 16#7FFF_FFFF. -/
theorem test_asatq_of_minus_one_squared :
    later (.asatq 0 9 0) (onCtx loaded fun x => { x with a := x.a.set 0 (BitVec.ofInt 72 (2 ^ 63)) }) 1 9 = 0x7FFFFFFF := by decide +kernel
/-- ADD wraps, ADDS saturates. -/
theorem test_add_wraps : later (.add 0 9 4 5) (withPair 0x7FFFFFFF 1) 1 9 = 0x80000000 := by decide +kernel
theorem test_adds_saturates : later (.adds 0 9 4 5) (withPair 0x7FFFFFFF 1) 1 9 = 0x7FFFFFFF := by decide +kernel
/-- SUB takes RB from RA. -/
theorem test_sub_order : later (.sub 0 9 4 5) (withPair 1 3) 1 9 = 0xFFFFFFFE := by decide +kernel
/-- A write of g0 is discarded. -/
theorem test_g0_discards : later (.add 0 0 4 5) (withPair 1 3) 1 0 = 0 := by decide +kernel
/-- EXT of a nibble with and without its sign; INS into the middle of a word that stands. -/
theorem test_ext_signed : later (.ext 0 9 4 true 3 4) (withPair 0xFFFFFF8F 0) 1 9 = 0xFFFFFFF8 := by decide +kernel
theorem test_ext_unsigned : later (.ext 0 9 4 false 3 4) (withPair 0xFFFFFF8F 0) 1 9 = 8 := by decide +kernel
theorem test_ins_field : later (.ins 0 5 4 3 8) (withPair 0xFA 0x11111111) 1 5 = 0x11111A11 := by decide +kernel
/-- BINS sets one bit of its destination; b3 is set. -/
theorem test_bins : later (.bins 0 5 3 31) (withPair 0 1) 1 5 = 0x80000001 := by decide +kernel
/-- Shifts by 31 and by 32, of which the low five bits count. -/
theorem test_sra : later (.sra 0 9 4 5) (withPair 0x80000000 31) 1 9 = 0xFFFFFFFF := by decide +kernel
theorem test_sll_by_32 : later (.sll 0 9 4 5) (withPair 3 32) 1 9 = 3 := by decide +kernel
theorem test_ror : later (.ror 0 9 4 5) (withPair 0x12345678 8) 1 9 = 0x78123456 := by decide +kernel
/-- Table 4-9. -/
theorem test_divs_rounds_to_zero : later (.divs 0 8 4 5) (withPair 0xFFFFFFF9 2) 18 8 = 0xFFFFFFFD ∧
    later (.divs 0 8 4 5) (withPair 0xFFFFFFF9 2) 18 9 = 0xFFFFFFFF := by decide +kernel
theorem test_divu_by_zero : later (.divu 0 8 4 5) (withPair 9 0) 18 8 = 0xFFFFFFFF ∧ later (.divu 0 8 4 5) (withPair 9 0) 18 9 = 9 := by decide +kernel
/-- LDP in the circular segment of 1 KiB: the last word, then offset 0. -/
theorem test_ldp_wraps : later (.ldp 0 9 4 4 2 1) (withPair 0x3FC 0) 1 4 = 0 := by decide +kernel
/-- Little-endian store of a half word; what a core sees of it after 2 cycles. -/
theorem test_sth_bytes :
    seenByte (after (exec (.sth 0 5 0 2 1) (withPair 0 0xABCD))) 0x10000002 22 = 0xCD ∧
      seenByte (after (exec (.sth 0 5 0 2 1) (withPair 0 0xABCD))) 0x10000003 22 = 0xAB ∧
      seenByte (after (exec (.sth 0 5 0 2 1) (withPair 0 0xABCD))) 0x10000003 21 = 0 := by decide +kernel
/-- 1.5 + 2.25 = 3.75 in binary32. -/
theorem test_fadd : later (.fadd 0 9 4 5) (withPair 0x3FC00000 0x40100000) 96 9 = 0x40700000 := by decide +kernel
theorem test_ftoir_ties_to_even : later (.ftoir 0 9 4) (withPair 0x40200000 0) 92 9 = 2 := by decide +kernel
/-- A delay slot holds no branch: code 16#2003. -/
theorem test_branch_in_slot : (after (exec (.br 0 0 true 4) inSlot)).cores[0].lastFault = 0x2003 := by decide +kernel
/-- A write with SET_CMD of 29 February 2100 is refused, of 1 March is not; that day is a Monday (worked example of the clock). -/
theorem test_set_refused : rw (after (exec (.setCmd 1 0 2500 40) (setWords 2100))) K.RTC_WREJ_CNT = 1 := by decide +kernel
theorem test_weekday : weekday (dayNumber 2100 3 1) = 0 ∧ weekday (dayNumber 2100 1 1) = 4 := by decide +kernel
/-- 29 February 2000 is followed by 1 March. -/
theorem test_leap_day : (after (exec (.calendarSecond 2500 40) leapEnd)).rtc.t.month = 3 ∧ (after (exec (.calendarSecond 2500 40) leapEnd)).rtc.t.day = 1 := by
  decide +kernel
/-- The edge of a module alone lies k periods after E0. -/
theorem test_edge_instant : (after (exec (.tickEdge edgeEnv) tickOver)).tick.edgeTs = 125000 := by decide +kernel
/-- Phase L begins 2 us after the edge. -/
theorem test_phase_l : (after (exec (.phaseLStart true) inPhaseI)).tick.phase = .l ∧ (after (exec (.phaseLStart true) inPhaseI)).cores[0].task.pc = 0x80 := by
  decide +kernel
/-- An early Cedar service ends in RESET. -/
theorem test_early_service : (after (exec (.cedarWatchdogService 199 100000) inCedar)).mode = .reset := by decide +kernel
/-- The first reading of a counter of encoder port 0: 00 to 10 counts up. -/
theorem test_encoder_up : (after (exec (.encTransition 0 true false false 2500) encInc)).enc.ports[0].count = encInc.enc.ports[0].count + 1 := by decide +kernel
/-- A command waits in the queue and is run by the step. -/
theorem test_step_runs_front :
    (match step { inRun with pending := [.scrubLine, .resultComplete 0] } with | .next t => decide (t.mem.scrub = 1) && decide (t.pending.length = 1) | _ => false) = true := by
  decide +kernel
/-- After power-up nothing runs: an edge without a sequencer changes nothing. -/
theorem test_edge_in_off : exec (.tickEdge edgeEnv) State.reset = .next State.reset := rfl


/-! ## A container: hypotheses of the statements about starts and exchanges. The signature primitive and the format of INIT are opaque (Assumptions 4 and 16), so
these witnesses hold where signatures verify and INIT has no runs. -/

/-- The directory entry of a section without a core: code, offset, size, measurement. -/
def boxEntry (id ofs size meas : Nat) : List Byte := leBytes 4 id ++ leBytes 4 ofs ++ leBytes 4 size ++ leBytes 4 0 ++ leBytes 32 meas
/-- The measurement of an empty section. -/
def emptyMeas : Nat := 0x2F76D56E64270CB5821BB862EA52CD3F24EB3E74EB3F3B23138DA80B2BDDB946
/-- A container of member 0 with no core, no area and one symbol, whose map comes from a program with the PROGID 0, and with the signature block of
the key [7].
The measurements are those of SHAKE256. -/
def box : List Byte :=
  padTo 64 (leBytes 4 0x4D494C56 ++ leBytes 2 0 ++ leBytes 2 7 ++ leBytes 4 784 ++ leBytes 4 0 ++ leBytes 4 64) ++
    boxEntry 0x01 448 0 emptyMeas ++ boxEntry 0x10 448 48 0xD9661C87BD5C7028131E58D38B64A4C5458FF42AEA447D0B31A928AD74AC233F ++
    boxEntry 0x13 512 0 emptyMeas ++ boxEntry 0x14 512 32 0xC7DFF8E0EADCF1D513DDA9D37217318C6199C96A0B5DCA3F5F89D9BFE53F3FD8 ++
    boxEntry 0x15 576 0 emptyMeas ++ boxEntry 0x16 576 32 0x6230ADD55717F81D743633645846DB114F1219261DC33B72636A5483827C97F5 ++ boxEntry 0x34 640 16 0x26036379B8AE812ED3CBE78D17D63DC928762B6FAA34BFC4434F5F453CB270D5 ++ padTo 48 [] ++
    padTo 64 (leBytes 4 250 ++ padTo 4 [] ++ leBytes 8 0x10000000 ++ leBytes 8 0x10000000 ++ leBytes 8 0x10000000 ++ leBytes 8 0x10000000 ++
      leBytes 4 0 ++ leBytes 4 1) ++
    padTo 64 (padTo 32 [1]) ++ padTo 64 [] ++ padTo 16 [] ++ padTo 128 (leBytes 8 0x7653B19E4DE20AB8)
/-- Its cells from address `a` on. -/
def boxCells (a : Nat) : List Host.Cell := box.zipIdx.map fun q => (a + q.2, q.1)
/-- The first 16 bytes of M of the container. -/
def boxMeas : List Byte := leBytes 16 0x49BFC61424024F039F33A533C6DE66C3
/-- The key that signed it is enrolled. -/
def withBox (s : State) (c : List Host.Cell) : State :=
  { s with upd := { s.upd with car := { mib := 32, cells := c } }
           trust := { s.trust with owners := Vector.replicate 4 ⟨[7], true, false⟩, rollback := 0 } }
/-- A start whose boot record names the container in slot 0. -/
def bootable (st : StartStep) : State := withBox (starting st 1) (boxCells 0x40000 ++ listed 0 (padTo 16 [] ++ boxMeas.take 12))

theorem cellGet_zipIdx (d : Byte) (a : Nat) (r : List Host.Cell) (l : List Byte) : ∀ k i, i < l.length →
    cellGet d ((l.zipIdx k).map (fun q => (a + q.2, q.1)) ++ r) (a + k + i) = l.getD i d := by
  induction l with
  | nil => intro k i h; simp at h
  | cons b l ih =>
    intro k i h
    cases i with
    | zero => simp [cellGet]
    | succ j =>
      have := ih (k + 1) j (by simpa using h)
      simp only [List.zipIdx_cons, List.map_cons, List.cons_append, cellGet]
      rw [if_neg (by omega), show a + k + (j + 1) = a + (k + 1) + j by omega, this]
      simp

theorem box_length : box.length = 784 := by decide +kernel

/-- What the carrier holds of the container. -/
theorem carBytes_box {s : State} {a : Nat} {r : List Host.Cell} (h : s.upd.car.cells = boxCells a ++ r) (o n : Nat) (hn : o + n ≤ 784) :
    carBytes s (a + o) n = (box.drop o).take n := by
  apply List.ext_getElem
  · simp [carBytes, cellBytes, box_length]; omega
  · intro i h1 h2
    have hi : i < n := by simpa [carBytes, cellBytes] using h1
    have := cellGet_zipIdx 0xFF a r box 0 (o + i) (by rw [box_length]; omega)
    simp only [carBytes, cellBytes, h, boxCells, List.getElem_map, List.getElem_range, List.getElem_take, List.getElem_drop]
    rw [Nat.add_assoc, show a + (o + i) = a + 0 + (o + i) by omega, this, List.getD_eq_getElem?_getD, List.getElem?_eq_getElem (by rw [box_length]; omega)]
    rfl

/-- The state's slot holds the container. -/
def Holds (s : State) (slot : Nat) : Prop := ∃ r, s.upd.car.cells = boxCells (slotBase s slot) ++ r

theorem header_box {s : State} {slot : Nat} (h : Holds s slot) : contHeader s slot = box.take 64 := by
  obtain ⟨r, h⟩ := h; exact carBytes_box h 0 64 (by decide)

theorem head_box {s : State} {slot : Nat} (h : Holds s slot) : contHead s slot = box.take 400 := by
  unfold contHead; rw [header_box h]; obtain ⟨r, h⟩ := h
  rw [show 64 + 48 * fld (box.take 64) 6 2 = 400 by decide +kernel]
  exact carBytes_box h 0 400 (by decide)

/-- The directory of the container. -/
def boxDir : List SectE :=
  [⟨0x01, 0, 448, 0, leBytes 32 emptyMeas⟩, ⟨0x10, 0, 448, 48, slice box (64 + 48 + 16) 32⟩, ⟨0x13, 0, 512, 0, leBytes 32 emptyMeas⟩,
   ⟨0x14, 0, 512, 32, slice box (64 + 144 + 16) 32⟩, ⟨0x15, 0, 576, 0, leBytes 32 emptyMeas⟩, ⟨0x16, 0, 576, 32, slice box (64 + 240 + 16) 32⟩, ⟨0x34, 0, 640, 16, slice box (64 + 288 + 16) 32⟩]

theorem dir_box {s : State} {slot : Nat} (h : Holds s slot) : contDir s slot = boxDir := by
  simp only [contDir, head_box h]; decide +kernel

theorem meas_box {s : State} {slot : Nat} (h : Holds s slot) : contMeas s slot = shake256 64 (box.take 400) := by
  simp only [contMeas, head_box h]

/-- The sections have their measurements. -/
theorem box_measured : boxDir.all (fun e => decide (shake256 32 ((box.drop e.ofs).take e.size) = e.meas)) = true := by decide +kernel

theorem sectBytes_box {s : State} {slot : Nat} (h : Holds s slot) {e : SectE} (he : e ∈ boxDir) : sectBytes s slot e = (box.drop e.ofs).take e.size := by
  obtain ⟨r, h⟩ := h
  exact carBytes_box h _ _ (by simp only [boxDir, List.mem_cons, List.not_mem_nil, or_false] at he; rcases he with rfl | rfl | rfl | rfl | rfl | rfl | rfl <;> decide)

/-- The bytes of a section by its code. -/
def boxSect (id : Nat) : List Byte := match boxDir.find? fun e => e.id = id with | some e => (box.drop e.ofs).take e.size | none => []

theorem sectOf_box {s : State} {slot : Nat} (h : Holds s slot) (id : Nat) : sectOf s slot id = boxSect id := by
  simp only [sectOf, boxSect, dir_box h]
  cases he : boxDir.find? fun e => decide (e.id = id) with
  | none => rfl
  | some e => exact sectBytes_box h (List.mem_of_find?_eq_some he)

theorem measOk_box {s : State} {slot : Nat} (h : Holds s slot) (p : SectE → Bool) : measOk s slot p = true := by
  simp only [measOk, dir_box h, List.all_eq_true]
  intro e he
  have h1 : decide (shake256 32 ((box.drop e.ofs).take e.size) = e.meas) = true := List.all_eq_true.mp box_measured e he
  rw [sectBytes_box h he, h1]; simp

theorem box_digest : (shake256 64 (box.take 400)).take 16 = boxMeas := by decide +kernel

theorem sign_box {s : State} {slot : Nat} (h : Holds s slot) : carBytes s (slotBase s slot + contLength s slot - 128) 128 = box.drop 656 := by
  rw [contLength, header_box h, show fld (box.take 64) 8 4 = 784 by decide +kernel, show slotBase s slot + 784 - 128 = slotBase s slot + 656 by omega]
  obtain ⟨r, h⟩ := h
  rw [carBytes_box h 656 128 (by decide), List.take_of_length_le (by simp [box_length])]

/-- The key that signed the container is the first owner's. -/
theorem owner_box {s : State} {slot : Nat} (hv : ∀ k m g, Config.ed448Verify k m g = true) (h : Holds s slot)
    (ho : s.trust.owners = Vector.replicate 4 ⟨[7], true, false⟩) : ownerOf s slot = some 0 := by
  simp only [ownerOf, sign_box h, ho, hv, Bool.and_true]; decide +kernel

theorem holds_boot (st : StartStep) : Holds (bootable st) 0 :=
  ⟨listed 0 (padTo 16 [] ++ boxMeas.take 12), by simp [slotBase, bootable, withBox]⟩

/-- Step 4 with an executive that agrees, where the signatures verify. -/
theorem witness_exec_agrees (hv : ∀ k m g, Config.ed448Verify k m g = true) :
    (bootable .exec).start.step = .exec ∧ (bootable .exec).start.kind ≠ 3 ∧ execOk (bootable .exec) (bootable .exec).upd.active = true := by
  have h := holds_boot .exec
  refine ⟨by decide +kernel, by decide +kernel, ?_⟩
  rw [show (bootable .exec).upd.active = 0 from rfl]
  simp only [execOk, contFormat, fwSigOk, hv, measOk_box h, owner_box hv h rfl, header_box h, head_box h, dir_box h, sectOf_box h, meas_box h,
    show (shake256 64 (box.take 400)).take 12 = boxMeas.take 12 by rw [← box_digest, List.take_take]; rfl]
  decide +kernel

/-- Step 6 with a program that is whole, owned and admitted, and no hold, where the signature verifies and INIT has no runs. -/
theorem witness_program_fits (hv : ∀ k m g, Config.ed448Verify k m g = true) (hi : ∀ b, Config.initRuns b = []) :
    (bootable .program).start.step = .program ∧ (bootable .program).ret.j.hold = false ∧
    measOk (setNow (bootable .program) 2500) 0 (fun _ => true) = true ∧ (ownerOf (setNow (bootable .program) 2500) 0).isSome = true ∧
    (setNow (bootable .program) 2500).upd.active = 0 ∧
    admitOk (setNow (bootable .program) 2500) (parseImage (setNow (bootable .program) 2500) 0) = true := by
  have h : Holds (setNow (bootable .program) 2500) 0 := holds_boot .program
  refine ⟨by decide +kernel, by decide +kernel, measOk_box h _, by rw [owner_box hv h rfl]; rfl, rfl, ?_⟩
  simp only [admitOk, parseImage, dir_box h, sectOf_box h, header_box h, hi, List.map_nil]
  decide +kernel

/-- A module in RUN whose slot 1 holds the container, verified, and whose program in slot 0 has the PROGID 0. -/
def withNext (s : State) : State :=
  let s := withBox s (boxCells 16908288)
  let car := { s.ret.j.car with state := 3, slot := 1, vmeas := boxMeas }
  { s with upd := { s.upd with active := 0 }, prog := some { img with progid := List.replicate 16 0 }, ret := { s.ret with j := { s.ret.j with car := car } } }

theorem base_next (s : State) : slotBase (withNext s) 1 = 16908288 := by
  have h : (withNext s).upd.car.mib = 32 := rfl
  rw [slotBase, slotSize, h]; decide +kernel
theorem holds_next (s : State) : Holds (withNext s) 1 := by
  have h : (withNext s).upd.car.cells = boxCells 16908288 := rfl
  exact ⟨[], by rw [h, base_next, List.append_nil]⟩

/-- An exchange that is accepted: of a module alone, through the standby, at the standby, and at the follower of a join. -/
theorem witness_exchange_accepted (hi : ∀ b, Config.initRuns b = []) :
    exchangeCheck (withNext (inSession inRun)) 0 1 = stOk ∧ xpairCheck (withNext (inSession (paired .active))) 0 1 = stOk ∧
    exchangeCheck (setNow (withNext standbySlot) 2500) 0xFF 1 = stOk ∧ exchangeCheck (setNow (withNext (joining 2)) 2500) 0xFF 1 = stOk := by
  have h1 := holds_next (inSession inRun)
  have h2 := holds_next (inSession (paired .active))
  have h3 : Holds (setNow (withNext standbySlot) 2500) 1 := holds_next standbySlot
  have h4 : Holds (setNow (withNext (joining 2)) 2500) 1 := holds_next (joining 2)
  refine ⟨?_, ?_, ?_, ?_⟩
  · simp only [exchangeCheck, slotVerified, meas_box h1, box_digest, migrateOk, admitOk, parseImage, dir_box h1, sectOf_box h1, header_box h1, hi, List.map_nil]
    decide +kernel
  · simp only [xpairCheck, exchangeCheck, slotVerified, meas_box h2, box_digest, migrateOk, admitOk, parseImage, dir_box h2, sectOf_box h2, header_box h2, hi, List.map_nil]
    decide +kernel
  · simp only [exchangeCheck, slotVerified, meas_box h3, box_digest, migrateOk, admitOk, parseImage, dir_box h3, sectOf_box h3, header_box h3, hi, List.map_nil]
    decide +kernel
  · simp only [exchangeCheck, slotVerified, meas_box h4, box_digest, migrateOk, admitOk, parseImage, dir_box h4, sectOf_box h4, header_box h4, hi, List.map_nil]
    decide +kernel

/-- The other hypotheses of these statements there. -/
theorem witness_exchange_states :
    (withNext (inSession inRun)).ret.j.hdrs[0].priv = true ∧ drives (withNext (inSession inRun)).role = true ∧
    (withNext (inSession (paired .active))).mode = .run ∧ takesMirror (withNext standbySlot) = true ∧
    laneSt (withNext standbySlot) (sLane 0) ≠ 0 ∧ (withNext standbySlot).role = .standby ∧ (withNext standbySlot).pair.xpair = false ∧
    jReceives (withNext (joining 2)) 1 = true ∧ (withNext (joining 2)).exch.image = none ∧ (withNext (joining 2)).upd.active = 0 := by decide +kernel

end Sys2Proof.Tests
end

/-! The dual-fetch multiply-accumulates and the accumulator instructions (R87, R108, R134 to R137). -/

namespace Sys2Proof.Machine

/-! ## Writes of a g register -/

@[simp] theorem Ctx.wg_b (x : Ctx) (r : RegNo) (v : Word) : (x.wg r v).b = x.b := by unfold Ctx.wg; split <;> rfl
@[simp] theorem Ctx.wg_a (x : Ctx) (r : RegNo) (v : Word) : (x.wg r v).a = x.a := by unfold Ctx.wg; split <;> rfl
@[simp] theorem Ctx.wg_s (x : Ctx) (r : RegNo) (v : Word) : (x.wg r v).s = x.s := by unfold Ctx.wg; split <;> rfl
@[simp] theorem Ctx.wg_csr (x : Ctx) (r : RegNo) (v : Word) : (x.wg r v).csr = x.csr := by unfold Ctx.wg; split <;> rfl
@[simp] theorem Ctx.wg_wg (x : Ctx) (r : RegNo) (v : Word) : (x.wg r v).wg r v = x.wg r v := by unfold Ctx.wg; split <;> simp

end Sys2Proof.Machine

namespace Sys2Proof

open Machine

/-! ## Reads of words without a latent error -/

/-- A word without a latent error is no cause of a local memory error. -/
theorem CleanWord.eccBad {s : State} {p : Nat} (h : CleanWord s p) : eccBad s p = false := by
  unfold Machine.eccBad; rw [h.2, Bool.and_false]

/-- A read of a word without a latent error leaves the state (R36, R111). -/
theorem CleanWord.eccRead {s : State} {p : Nat} (h : CleanWord s p) (port c : Nat) : eccRead s p port c = s := by
  have ⟨hsingle, hdouble⟩ := h
  have hfind : eccFind s p = s := by
    unfold eccFind
    dsimp only
    rw [hsingle, hdouble]
    split <;> rfl
  unfold Machine.eccRead
  rw [hfind, h.eccBad]
  rfl

theorem bankBad_of_clean {s : State} {ps : List Nat} (h : ∀ p ∈ ps, CleanWord s p) : bankBad s ps = false := by
  simp only [bankBad, List.any_eq_false, Bool.and_eq_true, not_and]
  exact fun p hp _ => by simp [(h p hp).eccBad]

theorem foldl_eccRead_of_clean {s : State} {ps : List Nat} (h : ∀ p ∈ ps, CleanWord s p) (port c : Nat) :
    ps.foldl (fun s p => eccRead s p port c) s = s := by
  induction ps with
  | nil => rfl
  | cons p ps ih =>
    rw [List.foldl_cons, (h p (by simp)).eccRead]
    exact ih fun q hq => h q (by simp [hq])

/-! ## The issue of register results of several distances -/

/-- The registers in cycle `j` depend on the registers and the results in flight alone. -/
theorem SameRegs.settle {x y : Ctx} (h : SameRegs x y) (hf : x.flight = y.flight) (j : Nat) : SameRegs (x.settle j) (y.settle j) := by
  refine (Ctx.settle_regs x j).trans (SameRegs.trans ?_ (Ctx.settle_regs y j).symm)
  rw [hf]
  exact h.completeAll _

/-- An effect of register results and of reads of clean words, where no task end waits: the results go in flight and one cycle passes. -/
theorem applyEff_results_of_clean {s : State} {c : CoreId} {x : Ctx} {ps : List Nat} (hd : ∀ at_, x.delay ≠ .endTask at_)
    (hp : ∀ p ∈ ps, CleanWord s p) (l : List (Nat × Res)) :
    applyEff s c x { res := l, reads := ps } =
      s.updCore c fun k =>
        { k.setCtx { x.launch s.cores[c].cyc l with pc := nextPc x, delay := .none, link := x.link } with cyc := k.cyc + 1 } := by
  have hread : ∀ f : Core → Core, ps.foldl (fun s p => eccRead s p c.val (2 ^ c.val)) (s.updCore c f) = s.updCore c f :=
    fun f => foldl_eccRead_of_clean (s := s.updCore c f) hp _ _
  unfold applyEff nextPc
  cases hx : x.delay with
  | endTask a => exact absurd hx (hd a)
  | none => exact hread _
  | jump t => exact hread _

/-- A ready core's instruction that reads clean words and has register results alone: they go in flight, one cycle passes, and
nothing else changes. -/
theorem issue_launches {s : State} {c : CoreId} (i : Instr) {f : Ctx → EOut} {l : List (Nat × Res)} {ps : List Nat} (h : Ready s c)
    (hf : f (issueCtx s c) = .ok { res := l, reads := ps }) (hp : ∀ p ∈ ps, CleanWord s p) :
    let t := issue s c i f
    OnlyCore s t c ∧ OnlyCtx s t c ∧ GoesOn s t c (nextPc (issueCtx s c)) (issueCtx s c).link .none ∧
      ∀ j, SameRegs (regsAt t c j) (((issueCtx s c).launch s.cores[c].cyc l).settle j) := by
  intro t
  have ⟨_, _, _, hdelay⟩ := h
  set x := issueCtx s c
  have hd : ∀ at_, x.delay ≠ .endTask at_ := by intro a ha; rw [ha] at hdelay; simp at hdelay
  let y : Ctx := { x.launch s.cores[c].cyc l with pc := nextPc x, delay := .none, link := x.link }
  let g : Core → Core := fun k => { ({ k.setCtx x with word := (encode i).getD 0 } : Core).setCtx y with cyc := k.cyc + 1 }
  have ht : t = s.updCore c g := by
    let s1 := s.updCore c fun k => { k.setCtx x with word := (encode i).getD 0 }
    have hk : s1.cores[c].cyc = s.cores[c].cyc := by simp only [s1]; rw [updCore_get, if_pos rfl]; exact Core.setCtx_cyc _ _
    refine (issue_ready h i hf (bankBad_of_clean hp)).trans ((applyEff_results_of_clean (s := s1) hd hp l).trans ?_)
    rw [hk, updCore_updCore]
    congr 1
    funext k
    simp only [g, y, Function.comp, Core.setCtx_cyc]
  have hc : t.cores[c] = g s.cores[c] := by rw [ht, updCore_get, if_pos rfl]
  have hctx : t.cores[c].ctx = y := by rw [hc]; exact Core.setCtx_ctx _ _
  have hcore : OnlyCore s t c := ⟨by rw [ht]; rfl, fun k hk => by rw [ht, updCore_get, if_neg (Ne.symm hk)]⟩
  refine ⟨hcore, ⟨?_, ?_⟩, ⟨by rw [hc], by rw [hctx], by rw [hctx], by rw [hctx]⟩, fun j => ?_⟩
  · rw [hc]; exact (Core.setCtx_twice _ x y _ _).1
  · rw [hc]; exact (Core.setCtx_twice _ x y _ _).2
  · unfold regsAt
    rw [hctx]
    exact SameRegs.settle (x := y) (y := x.launch s.cores[c].cyc l) ⟨rfl, rfl, rfl, rfl, rfl⟩ rfl j

/-! ## Contexts that differ in the offset registers and the accumulators alone -/

/-- Two contexts agree on b, s and every g register beside g[PX] and g[PY], and, where `acc` holds, on the accumulators and CSR. -/
def SameOutside (px py : RegNo) (acc : Prop) (x y : Ctx) : Prop :=
  x.b = y.b ∧ x.s = y.s ∧ (∀ k : RegNo, k ≠ px → k ≠ py → x.rg k = y.rg k) ∧ (acc → x.a = y.a ∧ x.csr = y.csr)

section
variable {px py : RegNo} {acc : Prop} {x y z : Ctx}

theorem SameRegs.rg (h : SameRegs x y) (k : RegNo) : x.rg k = y.rg k := by unfold Ctx.rg; rw [h.1]

theorem SameRegs.outside (h : SameRegs x y) : SameOutside px py acc x y := by
  have hrg := h.rg
  obtain ⟨-, hb, ha, hs, hcsr⟩ := h
  exact ⟨hb, hs, fun k _ _ => hrg k, fun _ => ⟨ha, hcsr⟩⟩

theorem SameOutside.trans (h : SameOutside px py acc x y) (h' : SameOutside px py acc y z) : SameOutside px py acc x z := by
  obtain ⟨hb, hs, hg, ha⟩ := h
  obtain ⟨hb', hs', hg', ha'⟩ := h'
  exact ⟨hb.trans hb', hs.trans hs', fun k h1 h2 => (hg k h1 h2).trans (hg' k h1 h2),
    fun h => ⟨(ha h).1.trans (ha' h).1, (ha h).2.trans (ha' h).2⟩⟩

/-- What a g register holds after a result depends on what it held before, and on the result. -/
theorem rg_complete_congr (r : Res) {k : RegNo} (h : x.rg k = y.rg k) : (x.complete r).rg k = (y.complete r).rg k := by
  cases r with
  | g q v => simp only [Ctx.complete, Ctx.rg_wg, h]
  | b q v => simp only [Ctx.complete, Ctx.wb]; split <;> exact h
  | acc q v => exact h
  | accAdd q v => exact h
  | s q d => exact h
  | csrOr m => exact h
  | csrSet v => exact h

/-- The completion of one result keeps the agreement. -/
theorem SameOutside.complete (h : SameOutside px py acc x y) (r : Res) : SameOutside px py acc (x.complete r) (y.complete r) := by
  obtain ⟨hb, hs, hg, ha⟩ := h
  have hg' : ∀ k : RegNo, k ≠ px → k ≠ py → (x.complete r).rg k = (y.complete r).rg k :=
    fun k h1 h2 => rg_complete_congr r (hg k h1 h2)
  cases r with
  | g q v => exact ⟨by simpa [Ctx.complete] using hb, by simpa [Ctx.complete] using hs, hg', by simpa [Ctx.complete] using ha⟩
  | b q v =>
    by_cases hq : q = 0
    · simpa only [Ctx.complete, Ctx.wb, hq, if_true] using ⟨hb, hs, hg, ha⟩
    · exact ⟨by simp [Ctx.complete, Ctx.wb, hq, hb], by simp [Ctx.complete, Ctx.wb, hq, hs], hg', by simpa [Ctx.complete, Ctx.wb, hq] using ha⟩
  | acc q v => exact ⟨hb, hs, hg', fun h => ⟨by simp [Ctx.complete, (ha h).1], (ha h).2⟩⟩
  | accAdd q v => exact ⟨hb, hs, hg', fun h => by simp [Ctx.complete, (ha h).1, (ha h).2]⟩
  | s q d => exact ⟨hb, by simp [Ctx.complete, hs], hg', ha⟩
  | csrOr m => exact ⟨hb, hs, hg', fun h => ⟨(ha h).1, by simp [Ctx.complete, (ha h).2]⟩⟩
  | csrSet v => exact ⟨hb, hs, hg', fun h => ⟨(ha h).1, rfl⟩⟩

theorem SameOutside.completeAll (h : SameOutside px py acc x y) (l : List Flight) :
    SameOutside px py acc (x.completeAll l) (y.completeAll l) := by
  induction l generalizing x y with
  | nil => exact h
  | cons f r ih => exact ih (h.complete f.res)

/-- A step of an offset register is not seen outside. -/
theorem sameOutside_complete_g {q : RegNo} (hq : q = px ∨ q = py) (v : Word) (x : Ctx) :
    SameOutside px py acc (x.complete (.g q v)) x := by
  refine ⟨x.wg_b q v, x.wg_s q v, fun k h1 h2 => ?_, fun _ => ⟨x.wg_a q v, x.wg_csr q v⟩⟩
  have hk : k ≠ q := by rintro rfl; exact hq.elim h1 h2
  exact (Ctx.rg_wg x q k v).trans (if_neg fun h => hk h.1)

/-- An addition into an accumulator is not seen where the accumulators do not count. -/
theorem sameOutside_complete_accAdd (hacc : ¬ acc) (q : AccNo) (v : Acc) (x : Ctx) :
    SameOutside px py acc (x.complete (.accAdd q v)) x := ⟨rfl, rfl, fun _ _ _ => rfl, fun h => absurd h hacc⟩

/-! ## Results launched together -/

/-- One more result in flight that is not due, or not seen outside, makes no difference outside. -/
theorem completeAll_insert_outside {f : Flight} {j : Nat} (hf : f.due ≤ j → ∀ y, SameOutside px py acc (y.complete f.res) y)
    (l : List Flight) (x : Ctx) :
    SameOutside px py acc (x.completeAll ((insertFlight f l).takeWhile fun q => decide (q.due ≤ j)))
      (x.completeAll (l.takeWhile fun q => decide (q.due ≤ j))) := by
  by_cases hj : f.due ≤ j
  · induction l generalizing x with
    | nil => simpa [insertFlight, hj, Ctx.completeAll] using hf hj x
    | cons a r ih =>
      by_cases ha : a.due ≤ f.due
      · simpa [insertFlight, ha, show a.due ≤ j by omega, Ctx.completeAll] using ih (x.complete a.res)
      · simpa [insertFlight, ha, hj, Ctx.completeAll] using (hf hj x).completeAll _
  · rw [takeWhile_insert_before (by omega)]
    exact (SameRegs.refl _).outside

/-- Results launched in cycle `i` of which those due are not seen outside. -/
theorem launch_settle_outside {i j : Nat} {l : List (Nat × Res)}
    (hl : ∀ q ∈ l, i + q.1 ≤ j → ∀ y, SameOutside px py acc (y.complete q.2) y) (x : Ctx) :
    SameOutside px py acc ((x.launch i l).settle j) (x.settle j) := by
  induction l generalizing x with
  | nil => exact (SameRegs.refl _).outside
  | cons q l ih =>
    let f : Flight := { due := i + q.1, res := q.2 }
    let w : Ctx := { x with flight := insertFlight f x.flight }
    have hw : SameOutside px py acc (w.settle j) (x.settle j) :=
      (Ctx.settle_regs w j).outside.trans
        (((SameRegs.completeAll (x := w) (y := x) ⟨rfl, rfl, rfl, rfl, rfl⟩ _).outside.trans
          (completeAll_insert_outside (f := f) (hl q (by simp)) x.flight x)).trans (Ctx.settle_regs x j).symm.outside)
    exact (ih (fun p hp => hl p (by simp [hp])) w).trans hw

/-- A launch writes no register before its results complete. -/
theorem launch_regs (x : Ctx) (i : Nat) (l : List (Nat × Res)) : SameRegs (x.launch i l) x := ⟨rfl, rfl, rfl, rfl, rfl⟩

theorem launch_append_flight (x : Ctx) (i d : Nat) (l : List (Nat × Res)) (r : Res) :
    (x.launch i (l ++ [(d, r)])).flight = insertFlight { due := i + d, res := r } (x.launch i l).flight := by simp [Ctx.launch]

/-- The last result of a launch is not seen before its cycle. -/
theorem launch_settle_before {i j d : Nat} (h : j < i + d) (x : Ctx) (l : List (Nat × Res)) (r : Res) :
    SameRegs ((x.launch i (l ++ [(d, r)])).settle j) ((x.launch i l).settle j) := by
  refine (Ctx.settle_regs _ j).trans (SameRegs.trans ?_ (Ctx.settle_regs _ j).symm)
  rw [launch_append_flight, takeWhile_insert_before h]
  exact ((launch_regs x i _).trans (launch_regs x i l).symm).completeAll _

/-- In its cycle it is written on top of all that completes by then (R100). -/
theorem launch_settle_at (x : Ctx) (i d : Nat) (l : List (Nat × Res)) (r : Res) :
    SameRegs ((x.launch i (l ++ [(d, r)])).settle (i + d)) (((x.launch i l).settle (i + d)).complete r) := by
  refine (Ctx.settle_regs _ _).trans (SameRegs.trans ?_ ((Ctx.settle_regs _ _).symm.complete r))
  have hat := takeWhile_insert_at { due := i + d, res := r } (x.launch i l).flight
  rw [launch_append_flight, hat, Ctx.completeAll_append]
  exact (((launch_regs x i _).trans (launch_regs x i l).symm).completeAll _).complete r

end

/-! ## The results of a multiply-accumulate (R87, R108, R136) -/

/-- The steps of the offset registers of a MAC (R108); where PX = PY the X operand's step stands alone. -/
def macSteps (px py : RegNo) (nx ny : Word) : List (Nat × Res) :=
  if px = py then [(1, .g px nx)] else [(1, .g px nx), (1, .g py ny)]

/-- The results of a MAC: the steps, and the addition into the accumulator. -/
def macResults (acc : AccNo) (px py : RegNo) (nx ny : Word) (p : Acc) : List (Nat × Res) :=
  macSteps px py nx ny ++ [(4, .accAdd acc p)]

/-- The instruction `i` of core `c` steps g[PX] and g[PY] in the next cycle and adds `p` to the accumulator that stands at issue + 4;
nothing else changes. -/
def MacGives (s : State) (c : CoreId) (i : Instr) (acc : AccNo) (px py : RegNo) (nx ny : Word) (p : Acc) : Prop :=
  let j := s.cores[c].cyc
  ∃ t, exec i s = .next t ∧ OnlyCore s t c ∧ OnlyCtx s t c ∧ GoesOn s t c (nextPc (issueCtx s c)) (issueCtx s c).link .none ∧
    SameRegs (regsAt t c (j + 1)) (((regsAt s c (j + 1)).complete (.g px nx)).complete (if px = py then .g px nx else .g py ny)) ∧
    (∀ m, j ≤ m → m < j + 4 → (regsAt t c m).a = (regsAt s c m).a) ∧
    (regsAt t c (j + 4)).a[acc] = (regsAt s c (j + 4)).a[acc] + p ∧
    (regsAt t c (j + 4)).csr = ((regsAt s c (j + 4)).csr |||
      if (regsAt s c (j + 4)).a[acc].toInt + p.toInt < -(2 ^ 71) ∨ 2 ^ 71 ≤ (regsAt s c (j + 4)).a[acc].toInt + p.toInt then 0x2 else 0) ∧
    (∀ k : AccNo, k ≠ acc → (regsAt t c (j + 4)).a[k] = (regsAt s c (j + 4)).a[k]) ∧
    ∀ m, j ≤ m → (regsAt t c m).b = (regsAt s c m).b ∧ (regsAt t c m).s = (regsAt s c m).s ∧
      ∀ k : RegNo, k ≠ px → k ≠ py → (regsAt t c m).rg k = (regsAt s c m).rg k

/-- In the cycle after the issue both offset registers have been stepped. -/
theorem macSteps_settle (x : Ctx) (i : Nat) (px py : RegNo) (nx ny : Word) :
    SameRegs ((x.launch i (macSteps px py nx ny)).settle (i + 1))
      (((x.settle (i + 1)).complete (.g px nx)).complete (if px = py then .g px nx else .g py ny)) := by
  have hfirst : SameRegs ((x.launch i [(1, .g px nx)]).settle (i + 1)) ((x.settle (i + 1)).complete (.g px nx)) :=
    launch_settle_at x i 1 [] (.g px nx)
  unfold macSteps
  by_cases hp : px = py
  · rw [if_pos hp, if_pos hp]
    simpa only [Ctx.complete, Ctx.wg_wg] using hfirst
  · rw [if_neg hp, if_neg hp]
    exact (launch_settle_at x i 1 [(1, .g px nx)] (.g py ny)).trans (hfirst.complete _)

/-- The steps are not seen outside the offset registers. -/
theorem sameOutside_complete_macSteps {acc : Prop} {px py : RegNo} {nx ny : Word} {q : Nat × Res} (hq : q ∈ macSteps px py nx ny)
    (y : Ctx) : SameOutside px py acc (y.complete q.2) y := by
  unfold macSteps at hq
  split at hq
  · obtain rfl : q = _ := by simpa using hq
    exact sameOutside_complete_g (.inl rfl) _ y
  · obtain rfl | rfl : q = _ ∨ q = _ := by simpa using hq
    · exact sameOutside_complete_g (.inl rfl) _ y
    · exact sameOutside_complete_g (.inr rfl) _ y

/-- All results of a MAC are not seen outside the offset registers, the accumulators and CSR; before issue + 4 not in these either. -/
theorem macResults_settle_outside (x : Ctx) (i m : Nat) (acc : AccNo) (px py : RegNo) (nx ny : Word) (p : Acc) :
    SameOutside px py (m < i + 4) ((x.launch i (macResults acc px py nx ny p)).settle m) (x.settle m) := by
  refine launch_settle_outside (fun q hq hm y => ?_) x
  obtain hq | rfl : q ∈ macSteps px py nx ny ∨ q = (4, .accAdd acc p) := by simpa [macResults] using hq
  · exact sameOutside_complete_macSteps hq y
  · exact sameOutside_complete_accAdd (by omega) acc p y

/-- At issue + 4 the product has been added to what the accumulator holds by then. -/
theorem macResults_settle_at (x : Ctx) (i : Nat) (acc : AccNo) (px py : RegNo) (nx ny : Word) (p : Acc) :
    SameOutside px py True ((x.launch i (macResults acc px py nx ny p)).settle (i + 4)) ((x.settle (i + 4)).complete (.accAdd acc p)) :=
  (launch_settle_at x i 4 _ _).outside.trans
    ((launch_settle_outside (fun _ hq _ y => sameOutside_complete_macSteps hq y) x).complete _)

theorem a_complete_accAdd (x : Ctx) (r q : AccNo) (v : Acc) :
    (x.complete (.accAdd r v)).a[q] = if q = r then x.a[r] + v else x.a[q] := by
  by_cases h : q = r
  · subst h; simp [Ctx.complete]
  · have hne : r.val ≠ q.val := fun e => h (Fin.ext e.symm)
    simp [Ctx.complete, h, hne]

/-- An addition into an accumulator sets AOV where the sum leaves the range (R87). -/
theorem csr_complete_accAdd (x : Ctx) (r : AccNo) (v : Acc) :
    (x.complete (.accAdd r v)).csr = (x.csr ||| if x.a[r].toInt + v.toInt < -(2 ^ 71) ∨ 2 ^ 71 ≤ x.a[r].toInt + v.toInt then 0x2 else 0) := by
  simp only [Ctx.complete, accWraps, Bool.or_eq_true, decide_eq_true_eq]
  split
  · rfl
  · exact BitVec.or_zero.symm

/-- A ready core's instruction with the results of a MAC and reads of clean words. -/
theorem macGives_of_issue {s : State} {c : CoreId} {i : Instr} {f : Ctx → EOut} {acc : AccNo} {px py : RegNo} {nx ny : Word} {p : Acc}
    {ps : List Nat} (h : Ready s c) (he : exec i s = .next (issue s c i f))
    (hf : f (issueCtx s c) = .ok { res := macResults acc px py nx ny p, reads := ps }) (hp : ∀ q ∈ ps, CleanWord s q) :
    MacGives s c i acc px py nx ny p := by
  unfold MacGives
  intro j
  obtain ⟨hcore, hctx, hgo, hregs⟩ := issue_launches i h hf hp
  have hnow : ∀ {m}, j ≤ m → SameRegs ((issueCtx s c).settle m) (regsAt s c m) := fun hm => Ctx.settle_settle hm _
  have hout : ∀ m, j ≤ m → SameOutside px py (m < j + 4) (regsAt (issue s c i f) c m) (regsAt s c m) := fun m hm =>
    (hregs m).outside.trans ((macResults_settle_outside ..).trans (hnow hm).outside)
  have hat : SameOutside px py True (regsAt (issue s c i f) c (j + 4)) ((regsAt s c (j + 4)).complete (.accAdd acc p)) :=
    (hregs _).outside.trans ((macResults_settle_at ..).trans ((hnow (by omega)).complete _).outside)
  obtain ⟨-, -, -, hacc⟩ := hat
  obtain ⟨ha, hcsr⟩ := hacc trivial
  refine ⟨_, he, hcore, hctx, hgo, ?_, fun m hm hm4 => ?_, ?_, ?_, fun k hk => ?_, fun m hm => ?_⟩
  · exact ((hregs _).trans (launch_settle_before (by omega) ..)).trans
      ((macSteps_settle ..).trans (((hnow (by omega)).complete _).complete _))
  · obtain ⟨-, -, -, hsame⟩ := hout m hm
    exact (hsame hm4).1
  · rw [ha, a_complete_accAdd, if_pos rfl]
  · rw [hcsr, csr_complete_accAdd]
  · rw [ha, a_complete_accAdd, if_neg hk]
  · obtain ⟨hb, hs, hg, -⟩ := hout m hm
    exact ⟨hb, hs, hg⟩

/-! ## What a multiply-accumulate computes (R108, R134) -/

/-- The offset register after the step of a MAC operand: `4 * (k + 1)` bytes forward or backward, round a circular segment. -/
def macStep (d : Dword) (o : Nat) (back : Bool) (k : BitVec 2) : Word :=
  let n : Int := 4 * (k.toNat + 1)
  let v : Int := if back then o - n else o + n
  BitVec.ofInt 32 (if dC d = true ∧ back = true ∧ v < 0 then v + (dLimit d + 1)
    else if dC d = true ∧ back = false ∧ (dLimit d : Int) < v then v - (dLimit d + 1) else v)

/-- The operand of a MAC at offset `o` of a segment, as the issue cycle shows it. -/
def macWord (s : State) (c : CoreId) (d : Dword) (o : Nat) : Int :=
  (BitVec.ofNat 32 (leNat (seenBytes s (physOf c (dBase d + o)) 4 s.cores[c].cyc))).toInt

/-- The product that a MAC adds. -/
def macProduct (q neg : Bool) (u v : Int) : Int := (if neg then -1 else 1) * (if q then 2 else 1) * (u * v)

theorem backOfs_eq_macStep (d : Dword) (o : Nat) (k : BitVec 2) : backOfs d o (4 * (k.toNat + 1)) = macStep d o true k := by
  have hlt : ((o : Int) - 4 * (k.toNat + 1) < 0) ↔ o < 4 * (k.toNat + 1) := by omega
  simp only [backOfs, macStep, Bool.and_eq_true, decide_eq_true_eq, if_true, true_and, hlt, Bool.true_eq_false, false_and, and_false,
    if_false]
  split <;> rfl

theorem advance_eq_macStep (d : Dword) (o : Nat) (k : BitVec 2) : advance d o (4 * (k.toNat + 1)) = macStep d o false k := by
  have hadd : (o : Int) + 4 * (k.toNat + 1) = (o + 4 * (k.toNat + 1) : Nat) := by push_cast; rfl
  simp only [advance, macStep, Bool.and_eq_true, decide_eq_true_eq, Bool.false_eq_true, if_false, false_and, and_false, true_and, hadd,
    Int.ofNat_lt]
  split
  · rw [← BitVec.ofInt_natCast]
    congr 1
    omega
  · exact (BitVec.ofInt_natCast _ _).symm

/-- The step of R108, or of R134 where the operand goes backward. -/
theorem step_eq_macStep (d : Dword) (o : Nat) (back : Bool) (k : BitVec 2) :
    (if back then backOfs d o (4 * (k.toNat + 1)) else advance d o (4 * (k.toNat + 1))) = macStep d o back k := by
  cases back with
  | true => exact backOfs_eq_macStep d o k
  | false => exact advance_eq_macStep d o k

theorem product_eq_macProduct (q neg : Bool) (u v : Int) :
    (if neg then -(u * v * if q then 2 else 1) else u * v * if q then 2 else 1) = macProduct q neg u v := by
  unfold macProduct
  split_ifs <;> ring

section
variable {s : State} {c : CoreId} {x : Ctx} {sx sy : SegNo} {px py : RegNo}

/-- A MAC whose operands pass the checks of R108. -/
theorem macAt_ok (hx : inX x.s[sx] = true) (hy : inY x.s[sy] = true) (hax : accessOk x.s[sx] false 4 (x.rg px).toNat = true)
    (hay : accessOk x.s[sy] false 4 (x.rg py).toNat = true) (bx by_ : Bool) (acc : AccNo) (ix iy : BitVec 2) (q neg : Bool) :
    macAt s c x bx by_ acc sx sy px py ix iy q neg =
      .ok { res := macResults acc px py (macStep x.s[sx] (x.rg px).toNat bx ix) (macStep x.s[sy] (x.rg py).toNat by_ iy)
              (BitVec.ofInt 72 (macProduct q neg (macWord s c x.s[sx] (x.rg px).toNat) (macWord s c x.s[sy] (x.rg py).toNat)))
            reads := [physOf c (dBase x.s[sx] + (x.rg px).toNat), physOf c (dBase x.s[sy] + (x.rg py).toNat)] } := by
  unfold macAt
  simp only [hx, hy, hax, hay, Bool.not_true, Bool.false_eq_true, if_false, step_eq_macStep]
  rw [← product_eq_macProduct]
  rfl

/-- A MAC with an operand outside its bank is a bank fault (R108, R113). -/
theorem macAt_bankFault (h : inX x.s[sx] = false ∨ inY x.s[sy] = false) (bx by_ : Bool) (acc : AccNo) (ix iy : BitVec 2) (q neg : Bool) :
    ∃ seg ofs, macAt s c x bx by_ acc sx sy px py ix iy q neg = .fault 0x2006 seg ofs := by
  unfold macAt
  by_cases hx : inX x.s[sx] = true
  · have hy : inY x.s[sy] = false := h.resolve_left (by rw [hx]; decide)
    exact ⟨_, _, by simp only [hx, hy]; rfl⟩
  · exact ⟨_, _, by simp only [hx]; rfl⟩

end

/-- The multiply-accumulates of R134, forward and backward. -/
theorem multiplyAccumulate : Stated.MultiplyAccumulate := by
  intro s c acc sx sy px py ix iy q neg h x dx dy ox oy p1 p2 j word prod step go
  refine ⟨fun hx hy hsx hsy hrx hry hc1 hc2 => ?_, fun hbank hc1 hh hq => ?_⟩
  · have hax : accessOk dx false 4 ox = true := by unfold accessOk; rw [hsx, hrx]; rfl
    have hay : accessOk dy false 4 oy = true := by unfold accessOk; rw [hsy, hry]; rfl
    have hgo : ∀ (i : Instr) (bx by_ : Bool),
        exec i s = .next (issue s c i fun x => macAt s c x bx by_ acc sx sy px py ix iy q neg) → go i bx by_ := fun i bx by_ he =>
      macGives_of_issue h he (macAt_ok hx hy hax hay bx by_ acc ix iy q neg)
        (List.forall_mem_cons.2 ⟨hc1, List.forall_mem_singleton.2 hc2⟩)
    exact ⟨hgo _ _ _ rfl, hgo _ _ _ rfl, hgo _ _ _ rfl, hgo _ _ _ rfl⟩
  · have hfault : ∀ (i : Instr) (bx by_ : Bool),
        exec i s = .next (issue s c i fun x => macAt s c x bx by_ acc sx sy px py ix iy q neg) → Faults s c i 0x2006 := fun i bx by_ he => by
      obtain ⟨seg, ofs, hf⟩ := macAt_bankFault (s := s) (c := c) (px := px) (py := py) hbank bx by_ acc ix iy q neg
      exact faults_of_issue h he hf (by decide) hc1 hh hq
    exact ⟨hfault _ _ _ rfl, hfault _ _ _ rfl, hfault _ _ _ rfl, hfault _ _ _ rfl⟩

/-! ## The accumulator instructions (R135, R137) -/

/-- sat32 of R121: the nearest value of 32 bits, and whether it differs. -/
theorem sat32_eq (v : Int) :
    sat32 v = (BitVec.ofInt 32 (max (-(2 ^ 31)) (min (2 ^ 31 - 1) v)), decide (v < -(2 ^ 31) ∨ 2 ^ 31 - 1 < v)) := by
  have hclamp : clampI (-(2 ^ 31)) (2 ^ 31 - 1) v = max (-(2 ^ 31)) (min (2 ^ 31 - 1) v) := by unfold clampI; split_ifs <;> omega
  have hout : max (-(2 ^ 31)) (min (2 ^ 31 - 1) v) ≠ v ↔ v < -(2 ^ 31) ∨ 2 ^ 31 - 1 < v := by omega
  unfold sat32
  simp only [hclamp, hout]

/-- The results of a saturating read: the clamped value, and SAT where it differs. -/
theorem satRes_sat32 (rd : RegNo) (v : Int) :
    satRes rd 1 (sat32 v) =
      results ((Res.g rd (BitVec.ofInt 32 (max (-(2 ^ 31)) (min (2 ^ 31 - 1) v))) ::
        if v < -(2 ^ 31) ∨ 2 ^ 31 - 1 < v then [Res.csrOr 0x1] else []).map fun r => (1, r)) := by
  unfold satRes csrIf
  rw [sat32_eq]
  by_cases h : v < -(2 ^ 31) ∨ 2 ^ 31 - 1 < v
  · rw [if_pos h, decide_eq_true h]; rfl
  · rw [if_neg h, decide_eq_false h]; rfl

/-- The arithmetic shift of ASRA is the division that rounds down. -/
theorem sshiftRight_eq_fdiv (v : Acc) (n : Nat) : v.sshiftRight n = BitVec.ofInt 72 (v.toInt.fdiv (2 ^ n)) := by
  rw [Int.fdiv_eq_ediv_of_nonneg _ (by positivity), ← BitVec.ofInt_toInt (x := v.sshiftRight n), BitVec.toInt_sshiftRight,
    Int.shiftRight_eq_div_pow]
  norm_cast

/-- The word of ARDL. -/
theorem ofNat_eq_extract_low (v : Acc) : BitVec.ofNat 32 v.toNat = v.extractLsb' 0 32 := by
  apply BitVec.eq_of_toNat_eq; simp

/-- The word of ARDH. -/
theorem ofNat_eq_extract_high (v : Acc) : BitVec.ofNat 32 (v.toNat / 2 ^ 32) = v.extractLsb' 32 32 := by
  apply BitVec.eq_of_toNat_eq; simp [Nat.shiftRight_eq_div_pow]

/-- The word of ARDX: the top byte of the accumulator with its sign. -/
theorem ofInt_eq_extract_top (v : Acc) : BitVec.ofInt 32 (v.toInt / 2 ^ 64) = (v.extractLsb' 64 8).signExtend 32 := by
  have hshift : v.toInt / 2 ^ 64 = (v.sshiftRight 64).toInt := by
    rw [BitVec.toInt_sshiftRight, Int.shiftRight_eq_div_pow]; norm_cast
  have hext : BitVec.ofInt 32 (v.sshiftRight 64).toInt = (v.sshiftRight 64).signExtend 32 := rfl
  rw [hshift, hext]
  ext i hi
  by_cases hi8 : i < 8
  · simp [BitVec.getElem_signExtend, BitVec.getElem_sshiftRight, hi8, show i < 72 by omega, show 64 + i < 72 by omega]
  · simp [BitVec.getElem_signExtend, BitVec.getElem_sshiftRight, hi8, BitVec.msb_eq_getLsbD_last, show i < 72 by omega,
      show ¬ 64 + i < 72 by omega]

/-- The rounding of ASATQ. -/
theorem roundHi_eq (v : Int) : roundHi v = (v + 2 ^ 31).fdiv (2 ^ 32) := (Int.fdiv_eq_ediv_of_nonneg _ (by decide)).symm

/-- The accumulator instructions of R135. -/
theorem accumulatorResults : Stated.AccumulatorResults := by
  intro s c acc rd ra rb h x v sat
  refine ⟨gives_of_issue h rfl rfl, gives_of_issue h rfl rfl, gives_of_issue h rfl rfl, gives_of_issue h rfl ?_,
    gives_of_issue h rfl ?_, gives_of_issue h rfl ?_, gives_of_issue h rfl ?_, gives_of_issue h rfl (satRes_sat32 rd v),
    gives_of_issue h rfl ?_⟩
  · rw [sshiftRight_eq_fdiv]; rfl
  · rw [ofNat_eq_extract_low]; rfl
  · rw [ofNat_eq_extract_high]; rfl
  · rw [ofInt_eq_extract_top]; rfl
  · rw [roundHi_eq]; exact satRes_sat32 rd _

/-- Settles O8: the multiply-accumulates through what a launch of their results leaves in each cycle, the accumulator instructions by the
value of each result. -/
theorem accumulatorInstructions : Obligations.AccumulatorInstructions := ⟨multiplyAccumulate, accumulatorResults⟩

end Sys2Proof

/-! The stepped accesses LDP and STP (R128 to R131), and the multiplies and divides (R132, R133). -/

namespace Sys2Proof.Machine

/-! ## Bytes of a word, and stores in the queue (R11, R35) -/

@[simp] theorem leBytes_length (n v : Nat) : (leBytes n v).length = n := by
  induction n generalizing v with
  | zero => rfl
  | succ n ih => simp [leBytes, ih]

theorem leBytes_getD {n k : Nat} (h : k < n) (v : Nat) : (leBytes n v).getD k 0 = BitVec.ofNat 8 (v / 256 ^ k) := by
  induction n generalizing v k with
  | zero => omega
  | succ n ih =>
    cases k with
    | zero => simp [leBytes]
    | succ k => rw [leBytes, List.getD_cons_succ, ih (by omega), Nat.div_div_eq_div_mul, Nat.pow_succ']

/-- A store that no other one of the queue follows enters at its end. -/
theorem insertStore_last {t : Store} {l : List Store} (h : ∀ q ∈ l, q.cyc < t.cyc ∨ (q.cyc = t.cyc ∧ q.core ≤ t.core)) :
    insertStore t l = l ++ [t] := by
  induction l with
  | nil => rfl
  | cons a r ih => rw [insertStore, if_pos (h a (by simp)), ih fun q hq => h q (by simp [hq])]; rfl

/-- A held store entered in the queue. -/
def State.holdStore (s : State) (e : Store) : State := s.updMem fun m => { m with stq := insertStore e m.stq }

/-- A store that enters last shows its bytes from two cycles on, and every other byte as before (R35). -/
theorem seenByte_holdStore {s : State} {e : Store} (h : ∀ q ∈ s.mem.stq, q.cyc < e.cyc ∨ (q.cyc = e.cyc ∧ q.core ≤ e.core)) (a j : Nat) :
    seenByte (s.holdStore e) a j =
      if e.cyc + 2 ≤ j ∧ e.addr ≤ a ∧ a < e.addr + e.bytes.length then e.bytes.getD (a - e.addr) 0 else seenByte s a j := by
  have hstq : (s.holdStore e).mem.stq = s.mem.stq ++ [e] := insertStore_last h
  unfold seenByte
  rw [hstq, List.foldl_append]
  rfl

/-- The same of the low bytes of a number. -/
theorem seenByte_holdStore_leBytes {s : State} {c : CoreId} {i p z : Nat} (h : ∀ q ∈ s.mem.stq, q.cyc < i ∨ (q.cyc = i ∧ q.core ≤ c.val))
    (v a j : Nat) :
    seenByte (s.holdStore { cyc := i, core := c.val, addr := p, bytes := leBytes z v }) a j =
      if p ≤ a ∧ a < p + z ∧ i + 2 ≤ j then BitVec.ofNat 8 (v / 256 ^ (a - p)) else seenByte s a j := by
  rw [seenByte_holdStore h, leBytes_length]
  by_cases hin : p ≤ a ∧ a < p + z ∧ i + 2 ≤ j
  · obtain ⟨hp, hz, hj⟩ := hin
    rw [if_pos ⟨hj, hp, hz⟩, if_pos ⟨hp, hz, hj⟩]
    exact leBytes_getD (show a - p < z by omega) v
  · rw [if_neg fun ⟨hj, hp, hz⟩ => hin ⟨hp, hz, hj⟩, if_neg hin]

/-- The bytes seen depend on the memories alone. -/
theorem seenByte_congr {s t : State} (h : t.mem = s.mem) (a j : Nat) : seenByte t a j = seenByte s a j := by
  unfold seenByte; rw [h]

/-- An effect with a store is the effect without it on the state that holds the store. -/
theorem applyEff_store (s : State) (c : CoreId) (x : Ctx) (l : List (Nat × Res)) (p : Nat) (b : List Byte) :
    applyEff s c x { res := l, store := some (p, b) } =
      applyEff (s.holdStore { cyc := s.cores[c].cyc, core := c.val, addr := p, bytes := b }) c x { res := l } := rfl

/-! ## The accesses and steps of LDP and STP (R92, R128 to R130) -/

theorem accessOk_intro {d : Dword} {store : Bool} {z o : Nat} (hs : segOk d store z o = true) (hr : inRegion (dBase d + o) z = true) :
    accessOk d store z o = true := by rw [accessOk, hs, hr]; rfl

/-- The access size of R128 is a power of two. -/
theorem pSize_eq_pow : ∀ sz : BitVec 2, sz ≠ 3 → pSize sz = 2 ^ sz.toNat := by decide

/-- step(s, o, n) of R130 as one number. -/
theorem stepOfs_eq (d : Dword) (o : Nat) (n : Int) :
    stepOfs d o n =
      BitVec.ofInt 32 (if dC d = true ∧ 0 ≤ n ∧ (dLimit d : Int) < o + n then o + n - (dLimit d + 1)
        else if dC d = true ∧ n < 0 ∧ o + n < 0 then o + n + (dLimit d + 1) else o + n) := by
  simp only [stepOfs, Bool.and_eq_true, decide_eq_true_eq, and_assoc]
  split_ifs <;> rfl

/-- What LDP does in the context of its issue. -/
def ldpAt (s : State) (c : CoreId) (rt ra : RegNo) (sg : SegNo) (sz : BitVec 2) (stp : BitVec 10) (x : Ctx) : EOut :=
  if sz = 3 then .fault 0x2002 0 0
  else loadAt s c x rt sg (pSize sz) (x.rg ra).toNat [(1, .g ra (stepOfs x.s[sg] (x.rg ra).toNat (stp.toInt * pSize sz)))]

/-- What STP does in the context of its issue. -/
def stpAt (c : CoreId) (rt ra : RegNo) (sg : SegNo) (sz : BitVec 2) (stp : BitVec 10) (x : Ctx) : EOut :=
  if sz = 3 then .fault 0x2002 0 0
  else storeAt c x rt sg (pSize sz) (x.rg ra).toNat [(1, .g ra (stepOfs x.s[sg] (x.rg ra).toNat (stp.toInt * pSize sz)))]

section
variable (s : State) (c : CoreId) (rt ra : RegNo) (sg : SegNo) {sz : BitVec 2} (stp : BitVec 10) {x : Ctx}

theorem exec_ldp (sz : BitVec 2) :
    exec (.ldp c rt ra sg sz stp) s = .next (issue s c (.ldp c rt ra sg sz stp) (ldpAt s c rt ra sg sz stp)) := rfl

theorem exec_stp (sz : BitVec 2) :
    exec (.stp c rt ra sg sz stp) s = .next (issue s c (.stp c rt ra sg sz stp) (stpAt c rt ra sg sz stp)) := rfl

/-- An LDP whose access is permitted: its step, its value and the word that it reads. -/
theorem ldpAt_ok (hsz : sz ≠ 3) (h : accessOk x.s[sg] false (2 ^ sz.toNat) (x.rg ra).toNat = true) :
    ldpAt s c rt ra sg sz stp x =
      .ok { res := [(1, .g ra (stepOfs x.s[sg] (x.rg ra).toNat (stp.toInt * (2 ^ sz.toNat : Nat)))),
              (loadDist x.s[sg], .g rt (BitVec.ofNat 32
                (leNat (seenBytes s (physOf c (dBase x.s[sg] + (x.rg ra).toNat)) (2 ^ sz.toNat) s.cores[c].cyc))))]
            reads := [physOf c (dBase x.s[sg] + (x.rg ra).toNat)] } := by
  unfold ldpAt
  rw [if_neg hsz, pSize_eq_pow sz hsz]
  exact if_pos h

/-- An STP whose access is permitted: its step and the bytes that it stores. -/
theorem stpAt_ok (hsz : sz ≠ 3) (h : accessOk x.s[sg] true (2 ^ sz.toNat) (x.rg ra).toNat = true) :
    stpAt c rt ra sg sz stp x =
      .ok { res := [(1, .g ra (stepOfs x.s[sg] (x.rg ra).toNat (stp.toInt * (2 ^ sz.toNat : Nat))))]
            store := some (physOf c (dBase x.s[sg] + (x.rg ra).toNat), leBytes (2 ^ sz.toNat) (x.rg rt).toNat) } := by
  unfold stpAt
  rw [if_neg hsz, pSize_eq_pow sz hsz]
  exact if_pos h

end

end Sys2Proof.Machine

namespace Sys2Proof

open Machine

/-! ## Issue of a store -/

/-- A ready core's instruction with a store and register results: it issues as one of the results alone on the state that holds the store. -/
theorem issue_store {s : State} {c : CoreId} (i : Instr) {f : Ctx → EOut} {l : List (Nat × Res)} {p : Nat} {b : List Byte} (h : Ready s c)
    (hf : f (issueCtx s c) = .ok { res := l, store := some (p, b) }) :
    issue s c i f =
      issue (s.holdStore { cyc := s.cores[c].cyc, core := c.val, addr := p, bytes := b }) c i fun _ => .ok { res := l } := by
  have hcyc : (s.updCore c fun k => { k.setCtx (issueCtx s c) with word := (encode i).getD 0 }).cores[c].cyc = s.cores[c].cyc := by
    rw [updCore_get, if_pos rfl]; exact Core.setCtx_cyc _ _
  rw [issue_ready h i hf rfl, applyEff_store, hcyc]
  exact (issue_ready (s := s.holdStore _) (f := fun _ => .ok { res := l }) h i rfl rfl).symm

/-- A ready core's instruction with a store and register results: the store is held, the results go in flight, one cycle passes, and
nothing else changes. -/
theorem issue_stores {s : State} {c : CoreId} (i : Instr) {f : Ctx → EOut} {l : List (Nat × Res)} {p : Nat} {b : List Byte} (h : Ready s c)
    (hf : f (issueCtx s c) = .ok { res := l, store := some (p, b) }) :
    let t := issue s c i f
    let s' := s.holdStore { cyc := s.cores[c].cyc, core := c.val, addr := p, bytes := b }
    t = { s' with cores := t.cores } ∧ (∀ k : CoreId, k ≠ c → t.cores[k] = s.cores[k]) ∧ OnlyCtx s t c ∧
      GoesOn s t c (nextPc (issueCtx s c)) (issueCtx s c).link .none ∧
      ∀ j, SameRegs (regsAt t c j) (((issueCtx s c).launch s.cores[c].cyc l).settle j) := by
  intro t s'
  have ht : t = issue s' c i fun _ => .ok { res := l } := issue_store i h hf
  obtain ⟨⟨hrest, hcores⟩, hctx, hgo, hregs⟩ := issue_launches (s := s') i (f := fun _ => .ok { res := l }) (ps := []) h rfl (by simp)
  rw [ht]
  exact ⟨hrest, hcores, hctx, hgo, hregs⟩

/-! ## What the registers hold after a launch -/

section
variable {s t : State} {c : CoreId}

/-- The registers settled at the issue show later what the state's show (R99). -/
theorem issueCtx_settle {j : Nat} (h : s.cores[c].cyc ≤ j) : SameRegs ((issueCtx s c).settle j) (regsAt s c j) := Ctx.settle_settle h _

/-- One result launched is one result written. -/
theorem writesAfter_of_launch {d : Nat} {r : Res}
    (h : ∀ j, SameRegs (regsAt t c j) (((issueCtx s c).launch s.cores[c].cyc [(d, r)]).settle j)) : WritesAfter s t c d [r] :=
  ⟨fun j hj hd => (h j).trans ((launch_settle_before hd _ [] r).trans (issueCtx_settle hj)),
    (h _).trans ((launch_settle_at _ _ d [] r).trans ((issueCtx_settle (by omega)).complete r))⟩

variable {d : Nat} {ra rt : RegNo} {w v : Word}
  (h : ∀ j, SameRegs (regsAt t c j) (((issueCtx s c).launch s.cores[c].cyc [(1, .g ra w), (d, .g rt v)]).settle j))
include h

/-- In the cycle after an LDP the offset register alone has been written (R131). -/
theorem regsAt_step_of_load (hd : 1 < d) :
    SameRegs (regsAt t c (s.cores[c].cyc + 1)) ((regsAt s c (s.cores[c].cyc + 1)).complete (.g ra w)) :=
  (h _).trans ((launch_settle_before (l := [(1, .g ra w)]) (by omega) ..).trans
    ((launch_settle_at (l := []) ..).trans ((issueCtx_settle (by omega)).complete _)))

/-- An LDP is not seen outside its two registers. -/
theorem regsAt_outside_of_load {j : Nat} (hj : s.cores[c].cyc ≤ j) : SameOutside ra rt True (regsAt t c j) (regsAt s c j) := by
  refine (h j).outside.trans (.trans (launch_settle_outside (fun q hq _ y => ?_) _) (issueCtx_settle hj).outside)
  obtain rfl | rfl : q = _ ∨ q = _ := by simpa using hq
  · exact sameOutside_complete_g (.inl rfl) w y
  · exact sameOutside_complete_g (.inr rfl) v y

/-- In its cycle the value loaded stands in RT, also where RT is the offset register (R131). -/
theorem regsAt_load (hrt : rt ≠ 0) : (regsAt t c (s.cores[c].cyc + d)).rg rt = v :=
  calc (regsAt t c (s.cores[c].cyc + d)).rg rt
    _ = _ := ((h _).trans (launch_settle_at _ _ d [(1, .g ra w)] (.g rt v))).rg rt
    _ = v := (Ctx.rg_wg ..).trans (if_pos ⟨rfl, hrt⟩)

end

/-! ## LDP and STP -/

theorem one_lt_loadDist (d : Dword) : 1 < loadDist d := by unfold loadDist; split <;> decide

/-- Settles O6: LDP through the launch of its step and its value, STP through the launch of its step on the state that holds its store. -/
theorem steppedAccess : Obligations.SteppedAccess := by
  intro s c rt ra sg sz stp h x d z o n v L w p dist
  have hw : stepOfs d o n = w := stepOfs_eq d o n
  refine ⟨fun hsz hseg hreg hclean => ?_, fun hsz hseg hreg hord => ?_, fun hsz hc1 hh hq => ?_⟩
  · obtain ⟨hcore, hctx, hgo, hregs⟩ := issue_launches (.ldp c rt ra sg sz stp) h
      (ldpAt_ok s c rt ra sg stp hsz (accessOk_intro hseg hreg)) (List.forall_mem_singleton.2 hclean)
    have hstep := regsAt_step_of_load hregs (one_lt_loadDist d)
    rw [hw] at hstep
    refine ⟨_, exec_ldp .., hcore, hctx, hgo, hstep, fun j hj => ?_, regsAt_load hregs⟩
    obtain ⟨hb, hs, hg, hacc⟩ := regsAt_outside_of_load hregs hj
    obtain ⟨ha, hcsr⟩ := hacc trivial
    exact ⟨hb, ha, hs, hcsr, hg⟩
  · obtain ⟨ht, hcores, hctx, hgo, hregs⟩ := issue_stores (.stp c rt ra sg sz stp) h
      (stpAt_ok c rt ra sg stp hsz (accessOk_intro hseg hreg))
    have hmem := congrArg State.mem ht
    have hwrites := writesAfter_of_launch hregs
    rw [hw] at hwrites
    refine ⟨_, exec_stp .., ?_, hcores, hctx, hgo, hwrites, fun a j => ?_⟩
    · rw [hmem]; exact ht
    · rw [seenByte_congr hmem]
      exact seenByte_holdStore_leBytes hord (x.rg rt).toNat a j
  · exact ⟨faults_of_issue h (exec_ldp ..) (if_pos hsz) (by decide) hc1 hh hq,
      faults_of_issue h (exec_stp ..) (if_pos hsz) (by decide) hc1 hh hq⟩

/-! ## The multiplies (R132) -/

theorem mul_eq_ofInt (a b : Word) : a * b = BitVec.ofInt 32 (a.toInt * b.toInt) := by
  rw [BitVec.ofInt_mul, BitVec.ofInt_toInt, BitVec.ofInt_toInt]

/-- The results of a saturating instruction at distance `d`: the clamped value, and SAT where it differs. -/
theorem satRes_sat32_at (rd : RegNo) (d : Nat) (v : Int) :
    satRes rd d (sat32 v) =
      results ((Res.g rd (BitVec.ofInt 32 (max (-(2 ^ 31)) (min (2 ^ 31 - 1) v))) ::
        if v < -(2 ^ 31) ∨ 2 ^ 31 - 1 < v then [Res.csrOr 0x1] else []).map fun r => (d, r)) := by
  unfold satRes csrIf
  rw [sat32_eq]
  by_cases h : v < -(2 ^ 31) ∨ 2 ^ 31 - 1 < v
  · rw [if_pos h, decide_eq_true h]; rfl
  · rw [if_neg h, decide_eq_false h]; rfl

/-- The multiplies of R132. -/
theorem multiplyResults : Stated.MultiplyResults := by
  intro s c rd ra rb h a b q
  refine ⟨gives_of_issue h rfl ?_, gives_of_issue h rfl ?_, gives_of_issue h rfl rfl, gives_of_issue h rfl ?_⟩
  · rw [mul_eq_ofInt]; rfl
  · rw [← Int.fdiv_eq_ediv_of_nonneg _ (by decide)]; rfl
  · rw [roundHi_eq]; exact satRes_sat32_at rd 3 q

/-! ## The divides (R132, R133) -/

/-- A result that sets no bit of CSR may be left out. -/
theorem Gives.without_csrOr_zero {s : State} {c : CoreId} {i : Instr} {d : Nat} {rs : List Res} (h : Gives s c i d (rs ++ [.csrOr 0])) :
    Gives s c i d rs := by
  have hzero : ∀ x : Ctx, SameRegs (x.complete (.csrOr 0)) x := fun x => ⟨rfl, rfl, rfl, rfl, BitVec.or_zero⟩
  obtain ⟨t, he, hcore, hctx, hgo, hbefore, hat⟩ := h
  rw [List.foldl_append] at hat
  exact ⟨t, he, hcore, hctx, hgo, hbefore, hat.trans (hzero _)⟩

/-- Quotient, remainder and CSR bits of a divide into an even register, at distance 18. -/
theorem divRes_even {rd : RegNo} (h : rd.val % 2 = 0) (q r m : Word) :
    divRes rd (q, r, m) = results ([Res.g rd q, .g (rd + 1) r, .csrOr m].map fun e => (18, e)) := if_neg (by omega)

/-- A divide into an odd register is an illegal instruction. -/
theorem divRes_odd {rd : RegNo} (h : rd.val % 2 = 1) (q : Word × Word × Word) : divRes rd q = .fault 0x2002 0 0 := if_pos h

section
variable {a b : Word}

theorem divU_zero (a : Word) : divU a 0 = (0xFFFFFFFF, a, 0x8) := rfl

theorem divS_zero (a : Word) : divS a 0 = (if a.toInt < 0 then 0x80000000 else 0x7FFFFFFF, a, 0x8) := rfl

theorem divU_of_ne_zero (h : b ≠ 0) : divU a b = (BitVec.ofNat 32 (a.toNat / b.toNat), BitVec.ofNat 32 (a.toNat % b.toNat), 0) := by
  rw [← BitVec.toNat_udiv, ← BitVec.toNat_umod, BitVec.ofNat_toNat, BitVec.ofNat_toNat, BitVec.setWidth_eq, BitVec.setWidth_eq]
  exact if_neg h

/-- The one pair of operands whose signed quotient leaves the word. -/
theorem divS_overflow_iff : (a = 0x80000000 ∧ b = 0xFFFFFFFF) ↔ (a.toInt = -(2 ^ 31) ∧ b.toInt = -1) :=
  and_congr (BitVec.toInt_inj (y := (0x80000000 : Word))).symm (BitVec.toInt_inj (y := (0xFFFFFFFF : Word))).symm

theorem divS_overflow (h : a.toInt = -(2 ^ 31) ∧ b.toInt = -1) : divS a b = (0x7FFFFFFF, 0, 0x4) := by
  obtain ⟨rfl, rfl⟩ := divS_overflow_iff.2 h
  rfl

theorem divS_of_ne_zero (hb : b ≠ 0) (h : ¬(a.toInt = -(2 ^ 31) ∧ b.toInt = -1)) :
    divS a b = (BitVec.ofInt 32 (a.toInt.tdiv b.toInt), BitVec.ofInt 32 (a.toInt.tmod b.toInt), 0) := by
  unfold divS
  rw [if_neg hb, if_neg (mt divS_overflow_iff.1 h)]

end

/-- The divides of R132 with the edges of R133. -/
theorem divideResults : Stated.DivideResults := by
  intro s c rd ra rb h a b
  refine ⟨fun heven => ?_, fun hodd hc1 hh hq => ?_⟩
  · have hu : ∀ {q r m}, divU a b = (q, r, m) → Gives s c (.divu c rd ra rb) 18 [.g rd q, .g (rd + 1) r, .csrOr m] := fun e =>
      gives_of_issue h rfl ((congrArg (divRes rd) e).trans (divRes_even heven ..))
    have hs : ∀ {q r m}, divS a b = (q, r, m) → Gives s c (.divs c rd ra rb) 18 [.g rd q, .g (rd + 1) r, .csrOr m] := fun e =>
      gives_of_issue h rfl ((congrArg (divRes rd) e).trans (divRes_even heven ..))
    refine ⟨fun hb => ⟨?_, fun hin => ?_, fun hedge => hs (divS_overflow hedge)⟩, fun hb => ⟨hu ?_, hs ?_⟩⟩
    · exact Gives.without_csrOr_zero (rs := [_, _]) (hu (divU_of_ne_zero hb))
    · exact Gives.without_csrOr_zero (rs := [_, _]) (hs (divS_of_ne_zero hb hin))
    · rw [hb, divU_zero]
    · rw [hb, divS_zero]
  · exact ⟨faults_of_issue h rfl (divRes_odd hodd _) (by decide) hc1 hh hq, faults_of_issue h rfl (divRes_odd hodd _) (by decide) hc1 hh hq⟩

/-- Settles O7: each result's value against the model's, a divide's CSR result of 0 left out. -/
theorem multiplyAndDivideResults : Obligations.MultiplyAndDivideResults := ⟨multiplyResults, divideResults⟩

end Sys2Proof
